-- ==== Sys2Proof/Word.lean ====
section
/-! DEFINITION. The words of the Zohlen Z64: bytes, two-byte words, the numbered items of the
"Numbering" table of 00_scope.md, the two external input lines and the sixteen alert kinds. -/

namespace Sys2Proof

/-- One byte as a partner, the probe line or the page sees it. -/
abbrev Byte := BitVec 8

/-- A two-byte field; multi-byte fields are little-endian (00_scope.md, Byte order). -/
abbrev Word := BitVec 16

/-- Partner ports P0 to P3. -/
abbrev PortId := Fin 4

/-- Source slots S0 to S5; slot Sn drives permit line Kn. -/
abbrev SlotId := Fin 6

/-- Layers 0 (bottom) to 11 (top). -/
abbrev LayerId := Fin 12

/-- Probe slots 0 to 7. -/
abbrev ProbeId := Fin 8

/-- Frames 0 to 47. -/
abbrev FrameId := Fin 48

/-- The 256 bytes of a settings image or of the non-volatile page (R166, R176). -/
abbrev Image := Vector Byte 256

/-- The external input lines: X0 is the paid-energy block, X1 the service stop. -/
inductive Line where
  | x0
  | x1
  deriving DecidableEq, Repr

/-- The level of an input pin. -/
inductive Level where
  | low
  | high
  deriving DecidableEq, Repr

/-- The sixteen alert kinds, in the order of their numbers (R138). -/
inductive AlertKind where
  | overtemp
  | inversion
  | probeFault
  | modelDegraded
  | disinfectActive
  | comfortLow
  | reserveYield
  | inputX0
  | inputX1
  | disinfectFailed
  | periodStart
  | storeDone
  | storeFail
  | settingsLost
  | portSilent
  | setupChange
  deriving DecidableEq, Repr

/-- Every kind, in ascending kind number (R138). -/
def AlertKind.all : List AlertKind :=
  [.overtemp, .inversion, .probeFault, .modelDegraded, .disinfectActive, .comfortLow,
   .reserveYield, .inputX0, .inputX1, .disinfectFailed, .periodStart, .storeDone, .storeFail,
   .settingsLost, .portSilent, .setupChange]

/-- The kind's number (R138). -/
def AlertKind.number : AlertKind → Fin 16
  | .overtemp => 0
  | .inversion => 1
  | .probeFault => 2
  | .modelDegraded => 3
  | .disinfectActive => 4
  | .comfortLow => 5
  | .reserveYield => 6
  | .inputX0 => 7
  | .inputX1 => 8
  | .disinfectFailed => 9
  | .periodStart => 10
  | .storeDone => 11
  | .storeFail => 12
  | .settingsLost => 13
  | .portSilent => 14
  | .setupChange => 15

end Sys2Proof
end

