-- ==== Sys2Proof/Config.lean ====
section
/-! DEFINITION. What the spec fixes for every part (its identity codes and fixed bounds) and the
free choices it leaves open inside one step. A free choice is an opaque constant: nothing can be
proved of its value, so a statement holds whichever way the part decides. `State.openDraws` is the
draw number it is applied to. -/

namespace Sys2Proof

/-- The part code that IDENT returns (R162). -/
def Config.partCode : Word := 0x2064

/-- The revision code that IDENT returns (R162). -/
def Config.revision : Byte := 0x01

/-- R49: at a scan completion that makes overtemperature active, "either may be taken first" of the
target-reached check and the revocation, at each source both reach. True: the check is first at
the slot. (log entry 6) -/
opaque Config.targetCheckFirst : Nat → SlotId → Bool

/-- R51, R160: at a period start that expires the request of a running source and finds its owner
port silent, which of the two ends the grant. True: the silence is first at the slot.
(log entry 7) -/
opaque Config.silenceFirst : Nat → SlotId → Bool

/-- R74: when a take asks for a late plan, a frame at the head of another port's post list "may be
taken before the plan begins or after the plan completes". True: the head of the port's list is
taken before. (log entry 8) -/
opaque Config.takenBeforeLatePlan : Nat → PortId → Bool

/-- R74, R107: a frame of another port taken before the late plan begins may ask for a late plan
itself, and that ask is an event of its own. True: it reaches the planner before the beginning and
merges; false: after it, and sets the mark. (log entry 24) -/
opaque Config.askMerged : Nat → PortId → Bool

/-- R6, R16: the completion of a scan with no configured slot that the end of setup starts, and the
period start of R90. True: the completion is taken first. (log entry 9) -/
opaque Config.emptyScanFirst : Nat → Bool

/-- R11, R13: the order among valid probes of one layer, which the SETUP-EXIT checks exclude and
only a page the part did not write whole can bring. The probe of lower rank is taken as the lower
one. (log entry 10) -/
opaque Config.sharedLayerRank : Nat → ProbeId → Nat

end Sys2Proof
end

