-- ==== Sys2Proof/Syntax.lean ====
section
/-! DEFINITION. The commands of the Zohlen Z64: one constructor of Instr per row of
spec/opcode_table.json, with the operands the chapters give the event or command. A partner command
carries the port it came on; it stands for the moment at which it takes effect (R153). -/

namespace Sys2Proof

/-- The events and commands the part takes, one at a time. -/
inductive Instr where
  /-- POWER_ON_RESET (R179): supply is applied. -/
  | powerOnReset
  /-- RESET_PIN_RESET (R179, R187): RSTN has been held low for at least 10 µs. -/
  | resetPinReset
  /-- SUPPLY_LOW_RESET (R179, R187): the supply falls below its hold level. -/
  | supplyLowReset
  /-- RESTART_RESET (R180): select rises after an accepted RESTART. -/
  | restartReset
  /-- START_UP_LOAD (R178): the start-up load completes. -/
  | startUpLoad
  /-- SCAN_START (R5): the scan interval has passed since the previous scan start. -/
  | scanStart
  /-- PROBE_READ (R1): the third answer byte has been received; the three bytes in their order. -/
  | probeRead (low high check : Byte)
  /-- ANSWER_WINDOW_CLOSE (R1): the window closes with fewer than three bytes received. -/
  | answerWindowClose
  /-- PERIOD_START (R88): a second passes with the seconds remaining at 1. -/
  | periodStart
  /-- PLAN_COMPLETION (R104): the full plan in flight completes. -/
  | planCompletion
  /-- LATE_PLAN_COMPLETION (R110): the late plan in flight completes. -/
  | latePlanCompletion
  /-- INTAKE_TAKE (R74): the intake takes the head of the port's post list. -/
  | intakeTake (port : PortId)
  /-- INPUT_PIN_CHANGE (R123): the pin of the line goes to the level. -/
  | inputPinChange (line : Line) (level : Level)
  /-- SETTLE_EXPIRY (R123): the settle time of the line runs out. -/
  | settleExpiry (line : Line)
  /-- STORE_COMPLETION (R177): the page write ends; the 256 bytes the page is read back as. -/
  | storeCompletion (readBack : Image)
  /-- TRANSACTION_DISCARDED (R154): select rises before the last argument byte. -/
  | transactionDiscarded (port : PortId)
  /-- BAD_COMMAND (R153): a command byte that names no command. -/
  | badCommand (port : PortId) (code : Byte)
  /-- IDENT (R162). -/
  | ident (port : PortId)
  /-- STATUS (R162). -/
  | status (port : PortId)
  /-- TAKE (R67). -/
  | take (port : PortId)
  /-- FILL (R68); the count byte is the number of data bytes. -/
  | fill (port : PortId) (index offset : Byte) (data : List Byte)
  /-- FRAME-READ (R69). -/
  | frameRead (port : PortId) (index : Byte)
  /-- POST (R70). -/
  | post (port : PortId) (index : Byte)
  /-- GIVE-BACK (R71). -/
  | giveBack (port : PortId) (index : Byte)
  /-- REPLY-TAKE (R72). -/
  | replyTake (port : PortId)
  /-- RELEASE (R73). -/
  | release (port : PortId) (index : Byte)
  /-- ALERT-TAKE (R144). -/
  | alertTake (port : PortId)
  /-- ALERT-DONE (R145). -/
  | alertDone (port : PortId) (kind : Byte)
  /-- SELECT (R167). -/
  | select (port : PortId) (index : Word)
  /-- SET-READ (R167). -/
  | setRead (port : PortId) (n : Byte)
  /-- SET-WRITE (R168); the count byte is the number of data bytes. -/
  | setWrite (port : PortId) (data : List Byte)
  /-- SETUP-ENTER (R171). -/
  | setupEnter (port : PortId)
  /-- SETUP-EXIT (R173, R174). -/
  | setupExit (port : PortId)
  /-- SETUP-ABANDON (R175). -/
  | setupAbandon (port : PortId)
  /-- STORE (R177). -/
  | store (port : PortId)
  /-- RESTART (R180). -/
  | restart (port : PortId)
  /-- PORT-RESET (R165). -/
  | portReset (port : PortId)
  /-- MODEL-READ (R163). -/
  | modelRead (port : PortId)
  /-- SOURCE-READ (R164). -/
  | sourceRead (port : PortId) (slot : Byte)
  /-- SECONDS_REMAINING_TICK (R88): a second passes with the seconds remaining above 1. -/
  | secondsRemainingTick
  /-- RESET_PIN_RELEASE (R187): RSTN returns high. -/
  | resetPinRelease
  /-- SUPPLY_RECOVERY (R187): the supply rises above 2.85 V. -/
  | supplyRecovery
  deriving DecidableEq, Repr

end Sys2Proof
end

