-- ==== Sys2Proof/WellFormed.lean ====
section
/-! DEFINITION. What a command can carry on the wire (R153, R183): FILL and SET-WRITE carry a count
byte, so at most 255 data bytes; BAD_COMMAND stands for a byte that names no command. Every other
operand is bounded by its type. -/

namespace Sys2Proof

/-- The command bytes of R183, in the table's order. -/
def commandCodes : List Byte :=
  [0x01, 0x02, 0x10, 0x11, 0x12, 0x13, 0x14, 0x15, 0x16, 0x20, 0x21, 0x30, 0x31, 0x32,
   0x40, 0x41, 0x42, 0x43, 0x44, 0x45, 0x50, 0x51]

/-- A count byte can announce this many data bytes (R153: "from 0 to 255"). -/
def countFits (data : List Byte) : Bool := data.length ≤ 255

/-- The command can be sent: its count fits its count byte, and a bad command byte is one that
R183 does not list. -/
def Instr.wellFormed : Instr → Bool
  | .fill _ _ _ data => countFits data
  | .setWrite _ data => countFits data
  | .badCommand _ code => !commandCodes.contains code
  | .powerOnReset => true
  | .resetPinReset => true
  | .supplyLowReset => true
  | .restartReset => true
  | .startUpLoad => true
  | .scanStart => true
  | .probeRead _ _ _ => true
  | .answerWindowClose => true
  | .periodStart => true
  | .planCompletion => true
  | .latePlanCompletion => true
  | .intakeTake _ => true
  | .inputPinChange _ _ => true
  | .settleExpiry _ => true
  | .storeCompletion _ => true
  | .transactionDiscarded _ => true
  | .ident _ => true
  | .status _ => true
  | .take _ => true
  | .frameRead _ _ => true
  | .post _ _ => true
  | .giveBack _ _ => true
  | .replyTake _ => true
  | .release _ _ => true
  | .alertTake _ => true
  | .alertDone _ _ => true
  | .select _ _ => true
  | .setRead _ _ => true
  | .setupEnter _ => true
  | .setupExit _ => true
  | .setupAbandon _ => true
  | .store _ => true
  | .restart _ => true
  | .portReset _ => true
  | .modelRead _ => true
  | .sourceRead _ _ => true
  | .secondsRemainingTick => true
  | .resetPinRelease => true
  | .supplyRecovery => true

end Sys2Proof
end

