-- ==== Sys2Proof/Decode.lean ====
section
/-! DEFINITION. From bits to commands. spec/opcode_table.json gives no row any bits, so
`decodeTableWord` answers none. What the spec does give bytes is the transaction on a partner port:
`decodeTransaction` reads one (R152, R153, R154, R183) and `transactionBytes` writes one. -/

namespace Sys2Proof

/-- The command that a word spells by the table's bits: no row of the table gives bits, so no word
spells a command. -/
def decodeTableWord (_nbits _w : Nat) : Option Instr := none

/-- What a port makes of the bytes a partner has sent since select fell (R153, R154). -/
inductive Transaction where
  /-- No byte received: nothing happens. -/
  | empty
  /-- The last argument byte is still to come: if select rises here, the command is discarded. -/
  | incomplete
  /-- The command has taken effect; the bytes after its last argument byte (the turn byte and the
  response bytes) are not read. -/
  | complete (c : Instr) (unread : List Byte)
  deriving DecidableEq, Repr

/-- A command without arguments is complete with its command byte. -/
def noArguments (c : Instr) (rest : List Byte) : Transaction := .complete c rest

/-- A command of one argument byte. -/
def oneArgument (f : Byte → Instr) : List Byte → Transaction
  | [] => .incomplete
  | a :: rest => .complete (f a) rest

/-- A command that carries a count byte and that many data bytes (R153). -/
def countedData (f : List Byte → Instr) : List Byte → Transaction
  | [] => .incomplete
  | count :: rest =>
    if rest.length < count.toNat then .incomplete
    else .complete (f (rest.take count.toNat)) (rest.drop count.toNat)

/-- SELECT: a 16-bit index, little-endian (R167, R183). -/
def selectArguments (p : PortId) : List Byte → Transaction
  | low :: high :: rest => .complete (.select p (high ++ low)) rest
  | _ => .incomplete

/-- FILL: index, offset, count, data (R68, R183). -/
def fillArguments (p : PortId) : List Byte → Transaction
  | index :: offset :: rest => countedData (fun data => .fill p index offset data) rest
  | _ => .incomplete

/-- The command byte and the bytes after it (R183). A byte that names no command is a command
without arguments (R153). -/
def decodeCommand (p : PortId) (code : Byte) (rest : List Byte) : Transaction :=
  if code = 0x01 then noArguments (.ident p) rest
  else if code = 0x02 then noArguments (.status p) rest
  else if code = 0x10 then noArguments (.take p) rest
  else if code = 0x11 then fillArguments p rest
  else if code = 0x12 then oneArgument (.frameRead p) rest
  else if code = 0x13 then oneArgument (.post p) rest
  else if code = 0x14 then oneArgument (.giveBack p) rest
  else if code = 0x15 then noArguments (.replyTake p) rest
  else if code = 0x16 then oneArgument (.release p) rest
  else if code = 0x20 then noArguments (.alertTake p) rest
  else if code = 0x21 then oneArgument (.alertDone p) rest
  else if code = 0x30 then selectArguments p rest
  else if code = 0x31 then oneArgument (.setRead p) rest
  else if code = 0x32 then countedData (.setWrite p) rest
  else if code = 0x40 then noArguments (.setupEnter p) rest
  else if code = 0x41 then noArguments (.setupExit p) rest
  else if code = 0x42 then noArguments (.setupAbandon p) rest
  else if code = 0x43 then noArguments (.store p) rest
  else if code = 0x44 then noArguments (.restart p) rest
  else if code = 0x45 then noArguments (.portReset p) rest
  else if code = 0x50 then noArguments (.modelRead p) rest
  else if code = 0x51 then oneArgument (.sourceRead p) rest
  else noArguments (.badCommand p code) rest

/-- The bytes received on a port since its select fell (R152: one command per transaction). -/
def decodeTransaction (p : PortId) : List Byte → Transaction
  | [] => .empty
  | code :: rest => decodeCommand p code rest

/-- The count byte of a list of data bytes. -/
def countByte (data : List Byte) : Byte := BitVec.ofNat 8 data.length

/-- The command and argument bytes a partner sends for a command (R183), with the port it sends
them on; none for the events that no partner sends. -/
def transactionBytes : Instr → Option (PortId × List Byte)
  | .ident p => some (p, [0x01])
  | .status p => some (p, [0x02])
  | .take p => some (p, [0x10])
  | .fill p index offset data => some (p, 0x11 :: index :: offset :: countByte data :: data)
  | .frameRead p index => some (p, [0x12, index])
  | .post p index => some (p, [0x13, index])
  | .giveBack p index => some (p, [0x14, index])
  | .replyTake p => some (p, [0x15])
  | .release p index => some (p, [0x16, index])
  | .alertTake p => some (p, [0x20])
  | .alertDone p kind => some (p, [0x21, kind])
  | .select p index => some (p, [0x30, index.extractLsb' 0 8, index.extractLsb' 8 8])
  | .setRead p n => some (p, [0x31, n])
  | .setWrite p data => some (p, 0x32 :: countByte data :: data)
  | .setupEnter p => some (p, [0x40])
  | .setupExit p => some (p, [0x41])
  | .setupAbandon p => some (p, [0x42])
  | .store p => some (p, [0x43])
  | .restart p => some (p, [0x44])
  | .portReset p => some (p, [0x45])
  | .modelRead p => some (p, [0x50])
  | .sourceRead p slot => some (p, [0x51, slot])
  | .badCommand p code => some (p, [code])
  | .powerOnReset => none
  | .resetPinReset => none
  | .supplyLowReset => none
  | .restartReset => none
  | .startUpLoad => none
  | .scanStart => none
  | .probeRead _ _ _ => none
  | .answerWindowClose => none
  | .periodStart => none
  | .planCompletion => none
  | .latePlanCompletion => none
  | .intakeTake _ => none
  | .inputPinChange _ _ => none
  | .settleExpiry _ => none
  | .storeCompletion _ => none
  | .transactionDiscarded _ => none
  | .secondsRemainingTick => none
  | .resetPinRelease => none
  | .supplyRecovery => none

end Sys2Proof
end

