-- ==== Sys2Proof/Machine/Bytes.lean ====
section
/-! DEFINITION. Byte order, byte forms of numbers and the sums the part forms over bytes: the
little-endian fields of 00_scope.md and the two's complement temperatures. -/

namespace Sys2Proof.Machine

/-- A two-byte field from its low and high byte (00_scope.md: least significant byte first). -/
def wordOf (low high : Byte) : Word := high ++ low

/-- The two bytes of a field, in the order sent. -/
def wordBytes (w : Word) : List Byte := [w.extractLsb' 0 8, w.extractLsb' 8 8]

/-- A number as one byte. -/
def byteOf (n : Nat) : Byte := BitVec.ofNat 8 n

/-- A number as a two-byte field. -/
def numberBytes (n : Nat) : List Byte := wordBytes (BitVec.ofNat 16 n)

/-- A temperature as a two-byte field in two's complement (R182, R184, R185). -/
def tempBytes (t : Int) : List Byte := wordBytes (BitVec.ofInt 16 t)

/-- A flag byte: the flags by bit number, bit 0 first; unnamed bits read 0 (R182 to R185). -/
def flagByte (flags : List Bool) : Byte :=
  byteOf (flags.foldr (fun f rest => f.toNat + 2 * rest) 0)

/-- A value held to at least `lo` and at most `hi` (R23: the nearer end of the range). -/
def clampNat (lo hi n : Nat) : Nat := min hi (max lo n)

/-- The T16 range: −640 to 2400 (00_scope.md, Quantities). -/
def clampTemp (t : Int) : Int := min 2400 (max (-640) t)

/-- A 16-bit figure or count that stops at the top of its range (00_scope.md: it saturates). -/
def saturate (n : Nat) : Nat := min n 65535

/-- Every item of a group of like things, formed anew from its number and its value. -/
def each {α β : Type} {n : Nat} (v : Vector α n) (f : Fin n → α → β) : Vector β n :=
  Vector.ofFn fun i => f i v[i]

/-- One item of a group changed, the others kept. -/
def modifyAt {α : Type} {n : Nat} (v : Vector α n) (i : Fin n) (f : α → α) : Vector α n :=
  v.set i (f v[i])

end Sys2Proof.Machine
end

