-- ==== Sys2Proof/Machine/Image.lean ====
section
/-! DEFINITION. The settings image (R166, R186): the table of its fields with their offsets,
clamping, writers and factory defaults, the forming of written bytes (R168), the check word (R176),
the load of a page (R178), and one named reader per setting. -/

namespace Sys2Proof.Machine

/-- The form of a field: its width and what a write of a value stores. -/
inductive FieldForm where
  /-- One unsigned byte held to a range. -/
  | byte (lo hi : Nat)
  /-- Two unsigned bytes held to a range. -/
  | word (lo hi : Nat)
  /-- Two bytes, signed T16, held to −640 to 2400. -/
  | temp
  /-- A probe's layer position: 12 to 254 store 11, 0xFF stores UNUSED (R3). -/
  | layerPosition
  /-- A slot's owner: 4 to 255 store NONE, 0xFF (R39). -/
  | owner
  /-- 0 or 1; 1 to 255 store 1 (R39, R122, R139). -/
  | flag
  /-- The trigger mode of an edge-only kind: every value stores 0 (R139). -/
  | edgeOnly
  deriving DecidableEq, Repr

/-- Who may write a field (R169). -/
inductive FieldAccess where
  /-- A setup-only setting. -/
  | setupOnly
  /-- Merit and block-obey of a slot. -/
  | liveOf (slot : SlotId)
  /-- The subscription mask of a port. -/
  | maskOf (port : PortId)
  deriving DecidableEq, Repr

/-- One field of the image (R186). -/
structure Field where
  offset : Nat
  form : FieldForm
  access : FieldAccess
  /-- The factory default, as the unsigned number its bytes hold. -/
  factory : Nat
  deriving DecidableEq, Repr

/-- The field's width in bytes. -/
def fieldWidth (f : Field) : Nat :=
  match f.form with
  | .word _ _ => 2
  | .temp => 2
  | .byte _ _ => 1
  | .layerPosition => 1
  | .owner => 1
  | .flag => 1
  | .edgeOnly => 1

/-- The value a write stores for a written value, each as the unsigned number of the field's
bytes: R3, R5, R23, R39, R61, R87, R118, R122, R129, R139, R140, R158. -/
def storedValue (form : FieldForm) (written : Nat) : Nat :=
  match form with
  | .byte lo hi => clampNat lo hi written
  | .word lo hi => clampNat lo hi written
  | .temp => (BitVec.ofInt 16 (clampTemp (BitVec.ofNat 16 written).toInt)).toNat
  | .layerPosition => if written = 255 then 255 else min written 11
  | .owner => if written ≤ 3 then written else 255
  | .flag => min written 1
  | .edgeOnly => 0

/-- Offset of the source record of a slot (R39, R186). -/
def recordOffset (k : SlotId) : Nat := 0x050 + 16 * k.val

/-- Offset of the subscription mask of a port (R140). -/
def maskOffset (p : PortId) : Nat := 0x0C0 + 2 * p.val

/-- Layer volumes V0 to V11. -/
def volumeFields : List Field :=
  (List.range 12).map fun i => ⟨i, .byte 1 255, .setupOnly, 25⟩

/-- The probe entries: line address, then layer position (R3). -/
def probeFields : List Field :=
  (List.range 8).flatMap fun n =>
    [⟨0x010 + 2 * n, .byte 1 254, .setupOnly, n + 1⟩,
     ⟨0x011 + 2 * n, .layerPosition, .setupOnly, 0xFF⟩]

/-- The single settings from 0x020 to 0x04B. -/
def singleFields : List Field :=
  [⟨0x020, .byte 1 60, .setupOnly, 5⟩,
   ⟨0x021, .byte 0 15, .setupOnly, 3⟩,
   ⟨0x022, .word 0 3040, .setupOnly, 32⟩,
   ⟨0x024, .temp, .setupOnly, 160⟩,
   ⟨0x026, .temp, .setupOnly, 720⟩,
   ⟨0x028, .temp, .setupOnly, 1360⟩,
   ⟨0x02A, .temp, .setupOnly, 1472⟩,
   ⟨0x02C, .word 0 3040, .setupOnly, 80⟩,
   ⟨0x02E, .temp, .setupOnly, 960⟩,
   ⟨0x030, .byte 0 11, .setupOnly, 8⟩,
   ⟨0x032, .word 0 65535, .setupOnly, 2500⟩,
   ⟨0x034, .word 0 65535, .setupOnly, 2000⟩,
   ⟨0x036, .word 60 65535, .setupOnly, 3600⟩,
   ⟨0x038, .word 10 900, .setupOnly, 60⟩,
   ⟨0x03A, .word 0 900, .setupOnly, 15⟩,
   ⟨0x03C, .word 0 65535, .setupOnly, 10080⟩,
   ⟨0x03E, .byte 1 255, .setupOnly, 30⟩,
   ⟨0x040, .word 1 65535, .setupOnly, 720⟩,
   ⟨0x042, .byte 0 255, .setupOnly, 3⟩,
   ⟨0x044, .byte 0 16, .setupOnly, 12⟩,
   ⟨0x045, .byte 0 16, .setupOnly, 12⟩,
   ⟨0x046, .byte 0 16, .setupOnly, 12⟩,
   ⟨0x047, .byte 0 16, .setupOnly, 12⟩,
   ⟨0x048, .flag, .setupOnly, 0⟩,
   ⟨0x049, .byte 0 255, .setupOnly, 10⟩,
   ⟨0x04A, .flag, .setupOnly, 0⟩,
   ⟨0x04B, .byte 0 255, .setupOnly, 2⟩]

/-- The source record of one slot (R38, R39, R186); its two pad bytes are no field. -/
def recordFields (k : SlotId) : List Field :=
  let at0 := recordOffset k
  [⟨at0, .owner, .setupOnly, 0xFF⟩,
   ⟨at0 + 1, .flag, .setupOnly, 0⟩,
   ⟨at0 + 2, .byte 0 11, .setupOnly, 0⟩,
   ⟨at0 + 3, .byte 0 11, .setupOnly, 0⟩,
   ⟨at0 + 4, .word 0 65535, .setupOnly, 0⟩,
   ⟨at0 + 6, .word 0 65535, .setupOnly, 0⟩,
   ⟨at0 + 8, .byte 0 7, .liveOf k, 0⟩,
   ⟨at0 + 9, .flag, .liveOf k, 0⟩,
   ⟨at0 + 10, .byte 0 255, .setupOnly, 0⟩,
   ⟨at0 + 11, .byte 0 255, .setupOnly, 0⟩,
   ⟨at0 + 12, .temp, .setupOnly, 1360⟩]

/-- The trigger modes: kinds 0 to 8 are level-capable, kinds 9 to 15 edge-only (R139). -/
def modeFields : List Field :=
  (List.range 16).map fun k =>
    if k < 9 then ⟨0x0B0 + k, .flag, .setupOnly, 1⟩ else ⟨0x0B0 + k, .edgeOnly, .setupOnly, 0⟩

/-- The subscription masks (R140). -/
def maskFields : List Field :=
  (List.finRange 4).map fun p => ⟨maskOffset p, .word 0 65535, .maskOf p, 0⟩

/-- Every field of the image, in ascending offset order (R186). -/
def fieldTable : List Field :=
  volumeFields ++ probeFields ++ singleFields ++ (List.finRange 6).flatMap recordFields
    ++ modeFields ++ maskFields

/-- The field covers the offset. -/
def fieldCovers (f : Field) (offset : Nat) : Bool :=
  f.offset ≤ offset && offset < f.offset + fieldWidth f

/-- The field an offset belongs to; none for an unassigned byte (R166). -/
def fieldAt (offset : Nat) : Option Field := fieldTable.find? fun f => fieldCovers f offset

/-- The unsigned number in a field's bytes, little-endian. -/
def fieldValue (bytes : Nat → Byte) (f : Field) : Nat :=
  if fieldWidth f = 1 then (bytes f.offset).toNat
  else (wordOf (bytes f.offset) (bytes (f.offset + 1))).toNat

/-- The byte at an offset of a field that holds a number, little-endian. -/
def fieldByte (f : Field) (value offset : Nat) : Byte :=
  if offset = f.offset then byteOf value else byteOf (value / 256)

/-- A byte of an image. -/
def imageByte (img : Image) (offset : Nat) : Byte :=
  if h : offset < 256 then img[offset] else 0

/-- A one-byte setting. -/
def imageU8 (img : Image) (offset : Nat) : Nat := (imageByte img offset).toNat

/-- A two-byte field of an image. -/
def imageWord (img : Image) (offset : Nat) : Word :=
  wordOf (imageByte img offset) (imageByte img (offset + 1))

/-- A two-byte unsigned setting. -/
def imageU16 (img : Image) (offset : Nat) : Nat := (imageWord img offset).toNat

/-- A two-byte signed temperature setting. -/
def imageTemp (img : Image) (offset : Nat) : Int := (imageWord img offset).toInt

/-! ## The settings by name -/

/-- V0 to V11 (R23). -/
def layerVolumes (img : Image) : Vector Nat 12 := Vector.ofFn fun i => imageU8 img i.val
/-- A probe slot's line address (R3). -/
def probeAddress (img : Image) (n : ProbeId) : Byte := imageByte img (0x010 + 2 * n.val)
/-- A probe slot's layer position; none is UNUSED (R3). -/
def probeLayer (img : Image) (n : ProbeId) : Option LayerId :=
  let b := imageU8 img (0x011 + 2 * n.val)
  if b = 255 then none else if h : b < 12 then some ⟨b, h⟩ else some 11
def scanInterval (img : Image) : Nat := imageU8 img 0x020
def holdLimit (img : Image) : Nat := imageU8 img 0x021
def inversionMargin (img : Image) : Nat := imageU16 img 0x022
def tCold (img : Image) : Int := imageTemp img 0x024
def tUse (img : Image) : Int := imageTemp img 0x026
def tMax (img : Image) : Int := imageTemp img 0x028
def tLimit (img : Image) : Int := imageTemp img 0x02A
def hysteresis (img : Image) : Nat := imageU16 img 0x02C
def tDis (img : Image) : Int := imageTemp img 0x02E
def comfortFloor (img : Image) : Nat := imageU8 img 0x030
def comfortBase (img : Image) : Nat := imageU16 img 0x032
def yieldThreshold (img : Image) : Nat := imageU16 img 0x034
def recoveryTime (img : Image) : Nat := imageU16 img 0x036
def periodLength (img : Image) : Nat := imageU16 img 0x038
def lateThreshold (img : Image) : Nat := imageU16 img 0x03A
def disinfectionInterval (img : Image) : Nat := imageU16 img 0x03C
def disinfectionHold (img : Image) : Nat := imageU8 img 0x03E
def disinfectionDeadline (img : Image) : Nat := imageU16 img 0x040
def silenceTimeout (img : Image) : Nat := imageU8 img 0x042
def share (img : Image) (p : PortId) : Nat := imageU8 img (0x044 + p.val)

/-- X0's two input settings stand before X1's (R122). -/
def lineOffset : Line → Nat
  | .x0 => 0x048
  | .x1 => 0x04A

/-- The level at which the line is active: polarity 0 is HIGH (R122). -/
def linePolarity (img : Image) (l : Line) : Level :=
  if imageU8 img (lineOffset l) = 0 then .high else .low

/-- The settle in 10 ms steps (R122). -/
def lineSettle (img : Image) (l : Line) : Nat := imageU8 img (lineOffset l + 1)

/-- A slot's owner; none is NONE (R39). -/
def recordOwner (img : Image) (k : SlotId) : Option PortId :=
  let b := imageU8 img (recordOffset k)
  if h : b < 4 then some ⟨b, h⟩ else none

/-- Merit, a live field (R42). -/
def meritOf (img : Image) (k : SlotId) : Nat := imageU8 img (recordOffset k + 8)

/-- Block-obey, a live field (R42). -/
def blockObey (img : Image) (k : SlotId) : Bool := imageU8 img (recordOffset k + 9) != 0

/-- Whether the image selects LEVEL for a kind (R139). -/
def levelSelected (img : Image) (kind : Fin 16) : Bool := imageU8 img (0x0B0 + kind.val) != 0

/-- The subscription mask of a port (R140). -/
def subscriptionMask (img : Image) (p : PortId) : Word := imageWord img (maskOffset p)

/-- A port is subscribed to a kind while the kind's bit in its mask is set (R140). -/
def maskHas (img : Image) (p : PortId) (kind : AlertKind) : Bool :=
  (subscriptionMask img p).getLsbD kind.number.val

/-! ## Forming and writing the image -/

/-- The bytes an image would hold if the data were written from the offset onward, before any
clamping (R168: the written bytes together with the bytes the write does not reach). -/
def overlaid (img : Image) (start : Nat) (data : List Byte) (offset : Nat) : Byte :=
  if start ≤ offset ∧ offset < start + data.length then data.getD (offset - start) 0
  else imageByte img offset

/-- A write of `count` bytes from `start` reaches the field (R168). -/
def fieldReached (start count : Nat) (f : Field) : Bool :=
  f.offset < start + count && start < f.offset + fieldWidth f

/-- R168: each field the written bytes reach is formed from the written and the standing bytes,
clamped and stored; bytes written to unassigned bytes are disregarded. -/
def writtenImage (img : Image) (start : Nat) (data : List Byte) : Image :=
  Vector.ofFn fun i =>
    match fieldAt i.val with
    | none => imageByte img i.val
    | some f =>
      if fieldReached start data.length f then
        fieldByte f (storedValue f.form (fieldValue (overlaid img start data) f)) i.val
      else imageByte img i.val

/-- The factory default image, less its check word, which is formed at each read (R166, R186). -/
def factoryImage : Image :=
  Vector.ofFn fun i =>
    match fieldAt i.val with
    | none => 0
    | some f => fieldByte f f.factory i.val

/-- R178: a good page loaded byte by byte, every field clamped into its range and every unassigned
byte 0. -/
def loadedImage (page : Image) : Image :=
  Vector.ofFn fun i =>
    match fieldAt i.val with
    | none => 0
    | some f => fieldByte f (storedValue f.form (fieldValue (imageByte page) f)) i.val

/-- R176: 65,535 less the sum of bytes 0x000 to 0x0FD. -/
def checkWord (img : Image) : Nat :=
  65535 - ((List.range 254).map fun i => (imageByte img i).toNat).sum

/-- The image with its check word placed little-endian at 0x0FE and 0x0FF (R176). -/
def withCheckWord (img : Image) : Image :=
  Vector.ofFn fun i =>
    if i.val = 254 then byteOf (checkWord img)
    else if i.val = 255 then byteOf (checkWord img / 256)
    else img[i]

/-- R176: a page is good when the check word it holds is the one its bytes form. -/
def pageGood (page : Image) : Bool := imageU16 page 0x0FE == checkWord page

end Sys2Proof.Machine
end

