-- ==== Sys2Proof/Machine/Types.lean ====
section
/-! DEFINITION. The types of the state of the Zohlen Z64 as plain data, block by block (00_scope.md,
Functional overview). What two names of the spec share is stored once: held sets, permit lines,
attention lines, active states of the input lines and alert conditions are computed from what
stands here. -/

namespace Sys2Proof.Machine

/-! ## Probe Scanner -/

/-- The state of a probe slot (section 1.4). -/
inductive ProbeState where
  | unused
  | unread
  | ok
  | holding
  | failed
  deriving DecidableEq, Repr

/-- One entry of the probe table (R3). -/
structure ProbeSlot where
  address : Byte
  /-- The layer position; none is UNUSED. -/
  layer : Option LayerId
  state : ProbeState
  /-- The last valid reading, T16. -/
  lastValid : Int
  holdCount : Nat
  deriving DecidableEq, Repr

/-- What the scanner keeps of a read; the kind of a read fault is not kept (R1). -/
inductive ReadResult where
  | good (reading : Int)
  | fault
  deriving DecidableEq, Repr

/-- A scan in flight (R5, R6) with the settings taken at its start (R5, R118). -/
structure Scan where
  /-- Slots still to be read, in slot order; the first is being read. -/
  toRead : List ProbeId
  /-- Results so far, not yet applied to the probe table. -/
  results : List (ProbeId × ReadResult)
  holdLimit : Nat
  inversionMargin : Nat
  tLimit : Int
  hysteresis : Nat
  deriving DecidableEq, Repr

/-- The Probe Scanner (R3, R5). -/
structure Scanner where
  probes : Vector ProbeSlot 8
  scan : Option Scan
  /-- The scan interval taken at the last scan start, in seconds. -/
  interval : Nat
  deriving DecidableEq, Repr

/-! ## Layer Model -/

/-- The model state (R10). -/
inductive ModelState where
  | none
  | single
  | full
  deriving DecidableEq, Repr

/-- The Layer Model (R7, R10 to R13). -/
structure LayerModel where
  layers : Vector Int 12
  state : ModelState
  scanCompleted : Bool
  inversion : Bool
  deriving DecidableEq, Repr

/-! ## Source Table -/

/-- The two classes of source (R38). -/
inductive SourceClass where
  | free
  | paid
  deriving DecidableEq, Repr

/-- The Source Table's copy of the setup-only fields of a source record (R38, R40). -/
structure SourceRecord where
  owner : Option PortId
  sourceClass : SourceClass
  coilBottom : LayerId
  coilTop : LayerId
  ratedPower : Nat
  minPower : Nat
  minRun : Nat
  minRest : Nat
  ceiling : Int
  deriving DecidableEq, Repr

/-- The grant state (R44). -/
inductive GrantState where
  | unused
  | idle
  | waiting
  | running
  | resting
  deriving DecidableEq, Repr

/-- A grant record (R43). -/
structure GrantRecord where
  state : GrantState
  power : Nat
  target : Int
  runCount : Nat
  restCount : Nat
  firstGrant : Word
  requestGranted : Bool
  rank : Nat
  deriving DecidableEq, Repr

/-- The Source Table (R38, R43). -/
structure SourceTable where
  records : Vector SourceRecord 6
  grants : Vector GrantRecord 6
  deriving DecidableEq, Repr

/-! ## Request Pool -/

/-- The outcomes of a frame (R80). -/
inductive FrameOutcome where
  | noOutcome
  | done
  | expired
  | cancelled
  | withdrawn
  | refusedBad
  | refusedOwner
  | refusedBusy
  | refusedUnknown
  deriving DecidableEq, Repr

/-- The end causes (R47). -/
inductive EndCause where
  | noCause
  | plan
  | target
  | overtemp
  | serviceStop
  | modelNone
  | paidBlock
  | requestEnd
  | portSilent
  | setupEnter
  deriving DecidableEq, Repr

/-- The state of a frame (R62); a HELD frame carries its age (R79). -/
inductive FrameState where
  | free
  | taken
  | posted
  | held (age : Nat)
  | reported
  | collected
  deriving DecidableEq, Repr

/-- The request fields of a frame (R60); the pad byte reads 0. -/
structure Request where
  kind : Byte
  slot : Byte
  tag : Word
  target : Word
  amount : Word
  span : Word
  cancel : Byte
  deriving DecidableEq, Repr

/-- The result fields of a frame (R60). -/
structure Result where
  outcome : FrameOutcome
  endCause : EndCause
  firstGrant : Word
  periodsRun : Nat
  endPeriod : Word
  deriving DecidableEq, Repr

/-- A frame (R60, R62). -/
structure Frame where
  state : FrameState
  request : Request
  result : Result
  deriving DecidableEq, Repr

/-- The Request Pool (R60 to R65, R79). -/
structure RequestPool where
  shares : Vector Nat 4
  frames : Vector Frame 48
  freeLists : Vector (List FrameId) 4
  postLists : Vector (List FrameId) 4
  replyQueues : Vector (List FrameId) 4
  deriving DecidableEq, Repr

/-! ## Charge Planner -/

/-- The state of the Disinfection Cycle (R129). -/
inductive CycleState where
  | off
  | counting
  | due
  deriving DecidableEq, Repr

/-- The period snapshot (R93). -/
structure Snapshot where
  layers : Vector Int 12
  model : ModelState
  cycle : CycleState
  deriving DecidableEq, Repr

/-- The published figures (R37, R106). -/
structure Published where
  comfort : Nat
  deficit : Nat
  reservation : Nat
  line : Nat
  yieldFlag : Bool
  setAside : Bool
  need : Nat
  deriving DecidableEq, Repr

/-- One entry of a grant list (R103), with the request it was formed for (R104) and the merit the
plan read (R101). -/
structure GrantEntry where
  slot : SlotId
  frame : FrameId
  power : Nat
  target : Int
  wasRunning : Bool
  merit : Nat
  deriving DecidableEq, Repr

/-- A plan in flight: everything it decided on the inputs of its beginning (R94, R103). -/
structure Plan where
  grants : List GrantEntry
  revocations : List SlotId
  /-- The merits whose group was contested (R102). -/
  contested : List Nat
  figures : Published
  deriving DecidableEq, Repr

/-- The planner state (R91). -/
inductive PlannerState where
  | idle
  | planningFull (plan : Plan)
  | planningLate (plan : Plan)
  | suspended
  deriving DecidableEq, Repr

/-- The Charge Planner with the period timer (R87, R91, R93, R37). -/
structure Planner where
  timerRunning : Bool
  period : Word
  secondsRemaining : Nat
  periodLength : Nat
  lateThreshold : Nat
  state : PlannerState
  lateMark : Bool
  snapshot : Snapshot
  published : Published
  deriving DecidableEq, Repr

/-! ## Safety Monitor -/

/-- A settle in flight: its target level and the settle time it began with, in 10 ms steps
(R117, R123). -/
structure Settle where
  target : Level
  time : Nat
  deriving DecidableEq, Repr

/-- What the Safety Monitor holds for an input line (R117), and the level of its pin. -/
structure InputLine where
  pin : Level
  activeLevel : Level
  settleTime : Nat
  settled : Level
  settling : Option Settle
  deriving DecidableEq, Repr

/-- The Safety Monitor (R117). -/
structure SafetyMonitor where
  overtemp : Bool
  x0 : InputLine
  x1 : InputLine
  deriving DecidableEq, Repr

/-! ## Disinfection Cycle -/

/-- The Disinfection Cycle: its state, its counts and its copy of five settings (R129). -/
structure DisinfectionCycle where
  state : CycleState
  sinceSuccess : Nat
  sinceDue : Nat
  holdCount : Nat
  interval : Nat
  hold : Nat
  deadline : Nat
  tDis : Int
  floor : Nat
  deriving DecidableEq, Repr

/-! ## Alert Router -/

/-- The trigger mode of a kind (R139). -/
inductive TriggerMode where
  | edge
  | level
  deriving DecidableEq, Repr

/-- The Alert Router (R139, R141, R142). A set of kinds is a list without repeats in ascending
kind number. -/
structure AlertRouter where
  modes : Vector TriggerMode 16
  pendingKinds : Vector (List AlertKind) 4
  awaiting : Vector (List AlertKind) 4
  /-- A SETTINGS-LOST occurrence held for the port (R142). -/
  heldLost : Vector Bool 4
  deriving DecidableEq, Repr

/-! ## Partner Ports -/

/-- The status codes (R156). -/
inductive Status where
  | ok
  | noItem
  | busy
  | badCommand
  | badArgument
  | wrongState
  | notOwner
  | setupOnly
  | notHolder
  | invalid
  deriving DecidableEq, Repr

/-- What a port sends after the turn byte: the status byte, then the result bytes (R152, R153). -/
structure Response where
  status : Status
  bytes : List Byte
  deriving DecidableEq, Repr

/-- One partner port (R158), with the response fixed when its last command took effect (R153). -/
structure Port where
  active : Bool
  silence : Nat
  selector : Nat
  response : Option Response
  deriving DecidableEq, Repr

/-- The partner ports and their copy of the silence timeout (R158). -/
structure PartnerPorts where
  ports : Vector Port 4
  timeout : Nat
  deriving DecidableEq, Repr

/-- The serial lines of one partner port as its partner drives them (R152, R155): the level of SELn
and, of the transaction in flight, what has been clocked in. -/
structure Wire where
  select : Level
  /-- The transaction's select fell before the load completed, or a reset ended it (R155). -/
  disregarded : Bool
  /-- The command and argument bytes received in full. -/
  received : List Byte
  /-- The bits of the byte being received, the most significant first. -/
  bits : List Bool
  /-- Falling clock edges since select fell. -/
  clockFalls : Nat
  deriving DecidableEq, Repr

/-- How the part drives an output pin (R187). -/
inductive PinDrive where
  | low
  | high
  /-- Not driven: high impedance, or the released state of an open-drain pin. -/
  | released
  deriving DecidableEq, Repr

/-! ## Settings Store and the resets -/

/-- The non-volatile page (R176, R177). -/
inductive Page where
  /-- The page holds these 256 bytes. -/
  | holds (bytes : Image)
  /-- A reset came during a store: "partly erased or partly written", with a check word that does
  not match its bytes. Which bytes is open, and no rule reads them but to find them bad
  (log entry 11). -/
  | torn
  deriving DecidableEq, Repr

/-- While the part is in SETUP: the setup holder and the entry snapshot (section 9.3). -/
structure Setup where
  holder : PortId
  entrySnapshot : Image
  deriving DecidableEq, Repr

/-- The last store result (R177). -/
inductive StoreResult where
  | noResult
  | done
  | failed
  deriving DecidableEq, Repr

/-- The Settings Store (R166, R171, R177). -/
structure SettingsStore where
  image : Image
  page : Page
  /-- none: the part is not in SETUP. -/
  setup : Option Setup
  /-- The copy being written while the store state is WRITING; none: IDLE. -/
  storing : Option Image
  lastStore : StoreResult
  deriving DecidableEq, Repr

/-- The reset cause record (R179). -/
structure ResetCause where
  powerOn : Bool
  resetPin : Bool
  supplyLow : Bool
  restart : Bool
  deriving DecidableEq, Repr

/-- Whether the part decodes and runs, or is between the start of a reset and the completion of the
start-up load (R155, R181). -/
inductive Phase where
  | loading
  | running
  deriving DecidableEq, Repr

/-- The part as a whole: its phase, what holds it in reset (R187), the reset cause record and, port by
port, whether a RESTART has been accepted whose select has not yet risen (R180). -/
structure Part where
  phase : Phase
  rstnHeld : Bool
  supplyHeld : Bool
  cause : ResetCause
  restartArmed : Vector Bool 4
  deriving DecidableEq, Repr

end Sys2Proof.Machine
end

