-- ==== Sys2Proof/Machine/Copies.lean ====
section
/-! DEFINITION. What each block copies from a settings image (R4, R40, R61, R87, R122, R129, R139,
R158, R166) and the reset values of each block (R21, R58, R86, R116, R136, R137, R151, R158). -/

namespace Sys2Proof.Machine

/-! ## Probe Scanner and Layer Model -/

/-- R4, R21: a slot set up afresh from the image. -/
def freshProbe (img : Image) (n : ProbeId) : ProbeSlot where
  address := probeAddress img n
  layer := probeLayer img n
  state := if (probeLayer img n).isSome then .unread else .unused
  lastValid := 0
  holdCount := 0

/-- R21: the scanner after a reset; no scan is in flight. -/
def freshScanner (img : Image) : Scanner where
  probes := Vector.ofFn (freshProbe img)
  scan := none
  interval := scanInterval img

/-- R21: layers all 0, model state NONE, mark not set, inversion clear. -/
def resetModel : LayerModel where
  layers := Vector.replicate 12 0
  state := .none
  scanCompleted := false
  inversion := false

/-! ## Source Table -/

/-- A layer byte as a layer number; the stored byte is at most 11 (R39). -/
def layerOf (b : Nat) : LayerId := if h : b < 12 then ⟨b, h⟩ else 11

/-- R40: the setup-only fields of a slot's record. -/
def copiedRecord (img : Image) (k : SlotId) : SourceRecord where
  owner := recordOwner img k
  sourceClass := if imageU8 img (recordOffset k + 1) = 0 then .free else .paid
  coilBottom := layerOf (imageU8 img (recordOffset k + 2))
  coilTop := layerOf (imageU8 img (recordOffset k + 3))
  ratedPower := imageU16 img (recordOffset k + 4)
  minPower := imageU16 img (recordOffset k + 6)
  minRun := imageU8 img (recordOffset k + 10)
  minRest := imageU8 img (recordOffset k + 11)
  ceiling := imageTemp img (recordOffset k + 12)

/-- A grant record with every field but state and rank at 0 (R41, R58). -/
def clearedGrant (state : GrantState) (rank : Nat) : GrantRecord where
  state := state
  power := 0
  target := 0
  runCount := 0
  restCount := 0
  firstGrant := 0
  requestGranted := false
  rank := rank

/-- R58: UNUSED if the slot has no owner, IDLE otherwise; the rank is the slot number. -/
def freshGrant (img : Image) (k : SlotId) : GrantRecord :=
  clearedGrant (if (recordOwner img k).isSome then .idle else .unused) k.val

/-- R58: the Source Table after a reset. -/
def freshTable (img : Image) : SourceTable where
  records := Vector.ofFn (copiedRecord img)
  grants := Vector.ofFn (freshGrant img)

/-! ## Request Pool -/

/-- A FREE frame with all 20 bytes 0 (R67, R86). -/
def clearedFrame (state : FrameState) : Frame where
  state := state
  request := { kind := 0, slot := 0, tag := 0, target := 0, amount := 0, span := 0, cancel := 0 }
  result := { outcome := .noOutcome, endCause := .noCause, firstGrant := 0, periodsRun := 0,
              endPeriod := 0 }

/-- The port that owns a frame under the shares in force: consecutive runs, P0 first (R61). Shares that
sum above 48, which only a page the part did not write whole can bring (R177), cut the last runs off
at frame 47 (log entry 26). -/
def frameOwner (shares : Vector Nat 4) (f : FrameId) : Option PortId :=
  if f.val < shares[0] then some 0
  else if f.val < shares[0] + shares[1] then some 1
  else if f.val < shares[0] + shares[1] + shares[2] then some 2
  else if f.val < shares[0] + shares[1] + shares[2] + shares[3] then some 3
  else none

/-- A port's frames in ascending index order (R61, R63). -/
def portFrames (shares : Vector Nat 4) (p : PortId) : List FrameId :=
  (List.finRange 48).filter fun f => frameOwner shares f == some p

/-- The shares an image sets (R61). -/
def copiedShares (img : Image) : Vector Nat 4 := Vector.ofFn (share img)

/-- R86: the Request Pool after a reset. -/
def freshPool (img : Image) : RequestPool where
  shares := copiedShares img
  frames := Vector.replicate 48 (clearedFrame .free)
  freeLists := Vector.ofFn (portFrames (copiedShares img))
  postLists := Vector.replicate 4 []
  replyQueues := Vector.replicate 4 []

/-! ## Charge Planner -/

/-- R116: the Charge Planner after a reset. -/
def freshPlanner (img : Image) : Planner where
  timerRunning := false
  period := 0
  secondsRemaining := 0
  periodLength := periodLength img
  lateThreshold := lateThreshold img
  state := .idle
  lateMark := false
  snapshot := { layers := Vector.replicate 12 0, model := .none, cycle := .off }
  published := { comfort := 0, deficit := 0, reservation := 0, line := 0, yieldFlag := false,
                 setAside := false, need := 0 }

/-! ## Safety Monitor -/

/-- R124, R136: a line with its copied settings, the given pin and settled level and no settle in
flight. -/
def freshLine (img : Image) (l : Line) (pin settled : Level) : InputLine where
  pin := pin
  activeLevel := linePolarity img l
  settleTime := lineSettle img l
  settled := settled
  settling := none

/-! ## Disinfection Cycle -/

/-- R137: the Disinfection Cycle after a reset. -/
def freshCycle (img : Image) : DisinfectionCycle where
  state := if disinfectionInterval img = 0 then .off else .counting
  sinceSuccess := 0
  sinceDue := 0
  holdCount := 0
  interval := disinfectionInterval img
  hold := disinfectionHold img
  deadline := disinfectionDeadline img
  tDis := tDis img
  floor := comfortFloor img

/-! ## Alert Router -/

/-- R139: the trigger modes an image sets. -/
def copiedModes (img : Image) : Vector TriggerMode 16 :=
  Vector.ofFn fun kind => if levelSelected img kind then .level else .edge

/-- R151: the Alert Router after a reset. -/
def freshAlerts (img : Image) : AlertRouter where
  modes := copiedModes img
  pendingKinds := Vector.replicate 4 []
  awaiting := Vector.replicate 4 []
  heldLost := Vector.replicate 4 false

/-! ## Partner Ports -/

/-- R158: a port after a reset: SILENT, count 0, selector 0, no transaction in flight. -/
def resetPort : Port where
  active := false
  silence := 0
  selector := 0
  response := none

/-- R158: the ports after a reset. -/
def freshPorts (img : Image) : PartnerPorts where
  ports := Vector.replicate 4 resetPort
  timeout := silenceTimeout img

/-- A port's lines while no transaction is in flight: select is high (log entry 27). -/
def idleWire : Wire where
  select := .high
  disregarded := false
  received := []
  bits := []
  clockFalls := 0

/-- R181: no port has an accepted RESTART whose select has still to rise. -/
def noRestart : Vector Bool 4 := Vector.replicate 4 false

/-- An erased page: all 0xFF bytes, which is not good (R176). -/
def erasedPage : Page := .holds (Vector.replicate 256 0xFF)

end Sys2Proof.Machine
end

