-- ==== Sys2Proof/Machine/State.lean ====
section
/-! DEFINITION. The state of the Zohlen Z64 (one field per block), the outcomes' reason types, and
`State.reset`. -/

namespace Sys2Proof.Machine

/-- Why the block stops with a fault. No rule of the spec stops the part: a refused command answers
a status code and the part goes on, so there is no constructor. -/
inductive Fault where
  deriving DecidableEq, Repr

/-- Why a command has no outcome. -/
inductive Refusal where
  /-- Raised by `exec` alone, for a command that has no meaning yet; safe. No arm raises it now. -/
  | notModelled (mnemonic : String)
  deriving DecidableEq, Repr

/-- The state of the Z64, one field per block, the model's draw counter (log entry 5) and the queue
of commands that wait, first in first out. -/
structure State where
  part : Part
  scanner : Scanner
  model : LayerModel
  table : SourceTable
  pool : RequestPool
  planner : Planner
  safety : SafetyMonitor
  cycle : DisinfectionCycle
  alerts : AlertRouter
  ports : PartnerPorts
  wires : Vector Wire 4
  store : SettingsStore
  openDraws : Nat
  pending : List Instr
  deriving DecidableEq, Repr

/-- The Z64 right after a power-on reset, before the start-up load completes (R21, R58, R86, R116,
R136, R137, R151, R158, R179, R181). Until the load completes, what is copied from the loaded image
holds its factory value (log entry 2); the page is erased and the X pins are low (log entry 1); every
select is high (log entry 27); neither RSTN nor the supply holds the part (log entry 29). -/
def State.reset : State where
  part := { phase := .loading, rstnHeld := false, supplyHeld := false,
            cause := { powerOn := true, resetPin := false, supplyLow := false, restart := false },
            restartArmed := noRestart }
  scanner := freshScanner factoryImage
  model := resetModel
  table := freshTable factoryImage
  pool := freshPool factoryImage
  planner := freshPlanner factoryImage
  safety := { overtemp := false,
              x0 := freshLine factoryImage .x0 .low .low, x1 := freshLine factoryImage .x1 .low .low }
  cycle := freshCycle factoryImage
  alerts := freshAlerts factoryImage
  ports := freshPorts factoryImage
  wires := Vector.replicate 4 idleWire
  store := { image := factoryImage, page := erasedPage, setup := none, storing := none,
             lastStore := .noResult }
  openDraws := 0
  pending := []

end Sys2Proof.Machine
end

