-- ==== Sys2Proof/Machine/Ops.lean ====
section
/-! DEFINITION. The named operations over the state: one setter per block, the readers and updaters
of its numbered items (probe slots, records, grants, frames, ports, input lines), and the facts the
rules ask of the whole part (in SETUP, a plan in flight, a line active, a request held). -/

namespace Sys2Proof.Machine

/-! ## One setter per block -/

/-- The state with its Part replaced. -/
def State.setPart (s : State) (x : Part) : State := { s with part := x }

/-- The state with its Scanner replaced. -/
def State.setScanner (s : State) (x : Scanner) : State := { s with scanner := x }

/-- The state with its LayerModel replaced. -/
def State.setModel (s : State) (x : LayerModel) : State := { s with model := x }

/-- The state with its SourceTable replaced. -/
def State.setTable (s : State) (x : SourceTable) : State := { s with table := x }

/-- The state with its RequestPool replaced. -/
def State.setPool (s : State) (x : RequestPool) : State := { s with pool := x }

/-- The state with its Planner replaced. -/
def State.setPlanner (s : State) (x : Planner) : State := { s with planner := x }

/-- The state with its SafetyMonitor replaced. -/
def State.setSafety (s : State) (x : SafetyMonitor) : State := { s with safety := x }

/-- The state with its DisinfectionCycle replaced. -/
def State.setCycle (s : State) (x : DisinfectionCycle) : State := { s with cycle := x }

/-- The state with its AlertRouter replaced. -/
def State.setAlerts (s : State) (x : AlertRouter) : State := { s with alerts := x }

/-- The state with its PartnerPorts replaced. -/
def State.setPorts (s : State) (x : PartnerPorts) : State := { s with ports := x }

/-- The state with the ports' serial lines replaced. -/
def State.setWires (s : State) (x : Vector Wire 4) : State := { s with wires := x }

/-- The state with its SettingsStore replaced. -/
def State.setStore (s : State) (x : SettingsStore) : State := { s with store := x }

/-- The next draw of the free choices of Config (log entry 5). -/
def State.nextDraw (s : State) : State := { s with openDraws := s.openDraws + 1 }

/-! ## Numbered items -/

/-- A slot's source record in force (R40). -/
def recordOf (s : State) (k : SlotId) : SourceRecord := s.table.records[k]

/-- A slot's grant record (R43). -/
def grantOf (s : State) (k : SlotId) : GrantRecord := s.table.grants[k]

/-- One grant record changed. -/
def modGrant (s : State) (k : SlotId) (f : GrantRecord → GrantRecord) : State :=
  s.setTable { s.table with grants := modifyAt s.table.grants k f }

/-- Every grant record formed anew. -/
def eachGrant (s : State) (f : SlotId → GrantRecord → GrantRecord) : State :=
  s.setTable { s.table with grants := each s.table.grants f }

/-- A frame (R60). -/
def frameOf (s : State) (i : FrameId) : Frame := s.pool.frames[i]

/-- One frame changed. -/
def modFrame (s : State) (i : FrameId) (f : Frame → Frame) : State :=
  s.setPool { s.pool with frames := modifyAt s.pool.frames i f }

/-- Every frame formed anew. -/
def eachFrame (s : State) (f : FrameId → Frame → Frame) : State :=
  s.setPool { s.pool with frames := each s.pool.frames f }

/-- A frame put into a frame state. -/
def setFrameState (s : State) (i : FrameId) (st : FrameState) : State :=
  modFrame s i fun fr => { fr with state := st }

/-- A port's free list replaced (R63). -/
def setFreeList (s : State) (p : PortId) (l : List FrameId) : State :=
  s.setPool { s.pool with freeLists := s.pool.freeLists.set p l }

/-- A port's post list replaced (R64). -/
def setPostList (s : State) (p : PortId) (l : List FrameId) : State :=
  s.setPool { s.pool with postLists := s.pool.postLists.set p l }

/-- A port's reply queue replaced (R65). -/
def setReplyQueue (s : State) (p : PortId) (l : List FrameId) : State :=
  s.setPool { s.pool with replyQueues := s.pool.replyQueues.set p l }

def freeList (s : State) (p : PortId) : List FrameId := s.pool.freeLists[p]
def postList (s : State) (p : PortId) : List FrameId := s.pool.postLists[p]
def replyQueue (s : State) (p : PortId) : List FrameId := s.pool.replyQueues[p]

/-- The port that owns a frame under the shares in force (R61). -/
def ownerOf (s : State) (i : FrameId) : Option PortId := frameOwner s.pool.shares i

/-- A partner port (R158). -/
def portOf (s : State) (p : PortId) : Port := s.ports.ports[p]

/-- One port changed. -/
def modPort (s : State) (p : PortId) (f : Port → Port) : State :=
  s.setPorts { s.ports with ports := modifyAt s.ports.ports p f }

/-- Every port formed anew. -/
def eachPort (s : State) (f : PortId → Port → Port) : State :=
  s.setPorts { s.ports with ports := each s.ports.ports f }

/-- A port's serial lines (R152). -/
def wireOf (s : State) (p : PortId) : Wire := s.wires[p]

/-- One port's serial lines changed. -/
def modWire (s : State) (p : PortId) (f : Wire → Wire) : State :=
  s.setWires (modifyAt s.wires p f)

/-- An input line of the Safety Monitor (R117). -/
def lineOf (s : State) : Line → InputLine
  | .x0 => s.safety.x0
  | .x1 => s.safety.x1

/-- One input line replaced. -/
def setLine (s : State) (l : Line) (x : InputLine) : State :=
  match l with
  | .x0 => s.setSafety { s.safety with x0 := x }
  | .x1 => s.setSafety { s.safety with x1 := x }

/-! ## The part -/

/-- R180: a RESTART has been accepted from the port, and its select has not yet risen. -/
def restartArmedAt (s : State) (p : PortId) : Bool := s.part.restartArmed[p]

/-- Whether the part is running: from the start of any reset until the start-up load completes it
is not (R155, R181). -/
def isRunning (s : State) : Bool := s.part.phase == .running

/-- R155: the port decodes: the part runs, and the transaction in flight is not one whose select fell
before the start-up load completed or that a reset has ended. -/
def decodes (s : State) (p : PortId) : Bool := isRunning s && !(wireOf s p).disregarded

/-- The setup holder, while the part is in SETUP (section 9.3). -/
def setupHolder (s : State) : Option PortId := s.store.setup.map (·.holder)

/-- The part is in SETUP. -/
def inSetup (s : State) : Bool := s.store.setup.isSome

/-- A plan, full or late, is in flight (R94). -/
def planInFlight (s : State) : Bool :=
  match s.planner.state with
  | .idle => false
  | .planningFull _ => true
  | .planningLate _ => true
  | .suspended => false

/-- The intake is held off in SETUP and while a plan is in flight (R74, R91). -/
def intakeHeldOff (s : State) : Bool := inSetup s || planInFlight s

/-- The active state of a line: settled at the level its polarity names (R117, R122); neither line
is evaluated until the start-up load completes (R124, R136). -/
def lineActive (s : State) (l : Line) : Bool :=
  isRunning s && (lineOf s l).settled == (lineOf s l).activeLevel

/-- A slot is held back by X0: PAID, block-obey yes in the image as it stands, X0 active (R127). -/
def heldBackByX0 (s : State) (k : SlotId) : Bool :=
  (recordOf s k).sourceClass == .paid && blockObey s.store.image k && lineActive s .x0

/-- A port's state is ACTIVE (R158). -/
def portActive (s : State) (p : PortId) : Bool := (portOf s p).active

/-- A slot's owner is a port that is ACTIVE. -/
def ownerActive (s : State) (k : SlotId) : Bool :=
  match (recordOf s k).owner with
  | none => false
  | some p => portActive s p

/-- A slot is RUNNING. -/
def isGrantRunning (s : State) (k : SlotId) : Bool := (grantOf s k).state == .running

/-- A slot is WAITING. -/
def isGrantWaiting (s : State) (k : SlotId) : Bool := (grantOf s k).state == .waiting

/-- The slots in ascending order. -/
def allSlots : List SlotId := List.finRange 6

/-- The frames in ascending order. -/
def allFrames : List FrameId := List.finRange 48

/-- The ports in ascending order. -/
def allPorts : List PortId := List.finRange 4

/-- The slots that are RUNNING. -/
def runningSlots (s : State) : List SlotId := allSlots.filter fun k => isGrantRunning s k

/-! ## Held requests -/

/-- The request kinds (R60). -/
inductive RequestKind where
  | heat
  | standing
  | reserve
  | comfort
  | cancel
  deriving DecidableEq, Repr

/-- R182: a kind byte of 0, or of 6 to 255, names no kind. -/
def requestKind (b : Byte) : Option RequestKind :=
  if b = 1 then some .heat
  else if b = 2 then some .standing
  else if b = 3 then some .reserve
  else if b = 4 then some .comfort
  else if b = 5 then some .cancel
  else none

/-- R182: a source slot byte of 6 to 255 names no slot. -/
def slotOf (b : Byte) : Option SlotId := if h : b.toNat < 6 then some ⟨b.toNat, h⟩ else none

/-- R182: a frame index of 48 or more names no frame. -/
def frameIndex (b : Byte) : Option FrameId := if h : b.toNat < 48 then some ⟨b.toNat, h⟩ else none

/-- The kind of a frame's request. -/
def kindOf (s : State) (i : FrameId) : Option RequestKind := requestKind (frameOf s i).request.kind

/-- A frame is HELD (R62). -/
def isHeld (s : State) (i : FrameId) : Bool :=
  match (frameOf s i).state with
  | .held _ => true
  | .free => false
  | .taken => false
  | .posted => false
  | .reported => false
  | .collected => false

/-- A kind that concerns a source slot (R60, R79). -/
def kindNamesSource : Option RequestKind → Bool
  | some .heat => true
  | some .standing => true
  | some .reserve => false
  | some .comfort => false
  | some .cancel => false
  | none => false

/-- The slot a HELD HEAT or STANDING request concerns. -/
def heldSlot (s : State) (i : FrameId) : Option SlotId :=
  if isHeld s i && kindNamesSource (kindOf s i) then slotOf (frameOf s i).request.slot else none

/-- The HEAT or STANDING request held for a slot, if there is one (R75, R95). -/
def heldFor (s : State) (k : SlotId) : Option FrameId :=
  allFrames.find? fun i => heldSlot s i == some k

/-- The held set of a kind: demand (HEAT), standing, reserve, comfort (R79). -/
def heldSet (s : State) (kind : RequestKind) : List FrameId :=
  allFrames.filter fun i => isHeld s i && kindOf s i == some kind

end Sys2Proof.Machine
end

