-- ==== Sys2Proof/Machine/Energy.lean ====
section
/-! DEFINITION. The formation of the energy figures (02_energy_arithmetic.md, R22 to R36). Every
figure is a natural number; R22 bounds every intermediate below 2^32, so no wrap can occur. -/

namespace Sys2Proof.Machine

/-- R25: floor(V × max(0, T − reference) × 1163 / 16000). -/
def energyAbove (volume : Nat) (t reference : Int) : Nat :=
  volume * (t - reference).toNat * 1163 / 16000

/-- R25: floor(V × max(0, reference − T) × 1163 / 16000). -/
def energyShort (volume : Nat) (t reference : Int) : Nat :=
  volume * (reference - t).toNat * 1163 / 16000

/-- R24: a saturating sum of non-negative terms. -/
def saturatingSum (terms : List Nat) : Nat := saturate terms.sum

/-- The layers in ascending order. -/
def allLayers : List LayerId := List.finRange 12

/-- The layers from the comfort floor up to layer 11 (R27). -/
def comfortLayers (floor : Nat) : List LayerId := allLayers.filter fun i => floor ≤ i.val

/-- R26: the saturating sum of the energy above Tcold over all layers. -/
def storedEnergy (img : Image) (layers : Vector Int 12) : Nat :=
  saturatingSum (allLayers.map fun i => energyAbove (layerVolumes img)[i] layers[i] (tCold img))

/-- R27: Ecomf. -/
def comfortEnergy (img : Image) (layers : Vector Int 12) : Nat :=
  saturatingSum ((comfortLayers (comfortFloor img)).map fun i =>
    energyAbove (layerVolumes img)[i] layers[i] (tUse img))

/-- R30: Ddis, the energy short of Tdis from layer F upward. -/
def disinfectionDeficit (img : Image) (layers : Vector Int 12) : Nat :=
  saturatingSum ((comfortLayers (comfortFloor img)).map fun i =>
    energyShort (layerVolumes img)[i] layers[i] (tDis img))

/-- R31: the energy short of Tmax in a layer. -/
def room (img : Image) (layers : Vector Int 12) (i : LayerId) : Nat :=
  energyShort (layerVolumes img)[i] layers[i] (tMax img)

/-- R33: the running saturating sum of room over the layers below a line. -/
def roomBelow (img : Image) (layers : Vector Int 12) (line : Nat) : Nat :=
  saturatingSum ((allLayers.filter fun i => i.val < line).map (room img layers))

/-- R33: the smallest number from 0 to 12 whose layers below have room for the reservation, and 12
where all twelve layers fall short. -/
def reservationLine (img : Image) (layers : Vector Int 12) (reservation : Nat) : Nat :=
  ((List.range 12).find? fun line => reservation ≤ roomBelow img layers line).getD 12

/-- R35: ceil(D′ × 3600 / Rs), at most 65535. -/
def powerNeed (deficit recovery : Nat) : Nat := saturate ((deficit * 3600 + recovery - 1) / recovery)

/-- What a requester presents to a formation (R36). -/
structure FormationInputs where
  layers : Vector Int 12
  model : ModelState
  cycle : CycleState
  comfortAmounts : List Nat
  reserveAmounts : List Nat
  settings : Image

/-- The figures of a formation that a plan uses (R36). -/
structure Figures where
  published : Published
  lineInUse : Nat

/-- R29, R30: the larger of D and Ddis while the cycle presented is DUE, else D. -/
def workingDeficit (inp : FormationInputs) (deficit : Nat) : Nat :=
  match inp.cycle with
  | .due => max deficit (disinfectionDeficit inp.settings inp.layers)
  | .counting => deficit
  | .off => deficit

/-- R34: the three causes that set the reservation aside. -/
def isSetAside (inp : FormationInputs) (yieldFlag : Bool) : Bool :=
  yieldFlag || inp.cycle == .due || inp.model == .single

/-- R36: one formation; each figure depends on those above it. -/
def formFigures (inp : FormationInputs) : Figures :=
  let comfort := saturatingSum (comfortBase inp.settings :: inp.comfortAmounts)
  let deficit := comfort - comfortEnergy inp.settings inp.layers
  let yieldFlag := decide (yieldThreshold inp.settings ≤ deficit)
  let reservation := saturatingSum inp.reserveAmounts
  let line := reservationLine inp.settings inp.layers reservation
  let setAside := isSetAside inp yieldFlag
  { published :=
      { comfort := comfort
        deficit := deficit
        reservation := reservation
        line := line
        yieldFlag := yieldFlag
        setAside := setAside
        need := powerNeed (workingDeficit inp deficit) (recoveryTime inp.settings) }
    lineInUse := if setAside then 0 else line }

/-- The amounts of the requests of a held set (R28, R32). -/
def heldAmounts (s : State) (kind : RequestKind) : List Nat :=
  (heldSet s kind).map fun i => (frameOf s i).request.amount.toNat

end Sys2Proof.Machine
end

