-- ==== Sys2Proof/Machine/Flags.lean ====
section
/-! DEFINITION. The alert conditions (R138) and the flag bytes a partner sees (R184, R185). -/

namespace Sys2Proof.Machine

/-! ## Conditions -/

/-- Kinds 0 to 8 are level-capable (R138). -/
def levelCapable (k : AlertKind) : Bool := k.number.val < 9

/-- R19: at least one configured slot is FAILED. -/
def probeFault (s : State) : Bool :=
  (List.finRange 8).any fun n =>
    (s.scanner.probes[n]).layer.isSome && (s.scanner.probes[n]).state == .failed

/-- R19: a scan has completed since reset and the model state is SINGLE or NONE. -/
def modelDegraded (s : State) : Bool := s.model.scanCompleted && s.model.state != .full

/-- R138: whether the condition of a level-capable kind is true; an edge-only kind has no
condition. -/
def condition (s : State) : AlertKind → Bool
  | .overtemp => s.safety.overtemp
  | .inversion => s.model.inversion
  | .probeFault => probeFault s
  | .modelDegraded => modelDegraded s
  | .disinfectActive => s.cycle.state == .due
  | .comfortLow => 0 < s.planner.published.deficit
  | .reserveYield => s.planner.published.yieldFlag
  | .inputX0 => lineActive s .x0
  | .inputX1 => lineActive s .x1
  | .disinfectFailed => false
  | .periodStart => false
  | .storeDone => false
  | .storeFail => false
  | .settingsLost => false
  | .portSilent => false
  | .setupChange => false

/-! ## Flag bytes -/

/-- R185: bit 0 POWER-ON, bit 1 RESET-PIN, bit 2 SUPPLY-LOW, bit 3 RESTART. -/
def resetCauseByte (c : ResetCause) : Byte :=
  flagByte [c.powerOn, c.resetPin, c.supplyLow, c.restart]

/-- R185: bit n set while Pn is ACTIVE. -/
def portStatesByte (s : State) : Byte := flagByte (allPorts.map (portActive s))

/-- R184: bit 0 yield, bit 1 set-aside. -/
def publishedFlagsByte (f : Published) : Byte := flagByte [f.yieldFlag, f.setAside]

/-- R184: bit 0 overtemperature ACTIVE, bit 1 X0 active, bit 2 X1 active. -/
def protectionFlagsByte (s : State) : Byte :=
  flagByte [s.safety.overtemp, lineActive s .x0, lineActive s .x1]

end Sys2Proof.Machine
end

