-- ==== Sys2Proof/Machine/Formats.lean ====
section
/-! DEFINITION. The codes and the byte layouts a partner sees (10_formats_pins_and_ratings.md, R156,
R182 to R185), and the bytes a port sends in a transaction (R152). -/

namespace Sys2Proof.Machine

/-! ## Codes -/

/-- R156. -/
def statusCode : Status → Byte
  | .ok => 0x00
  | .noItem => 0x01
  | .busy => 0x02
  | .badCommand => 0x03
  | .badArgument => 0x04
  | .wrongState => 0x05
  | .notOwner => 0x06
  | .setupOnly => 0x07
  | .notHolder => 0x08
  | .invalid => 0x09

/-- R80. -/
def outcomeCode : FrameOutcome → Byte
  | .noOutcome => 0
  | .done => 1
  | .expired => 2
  | .cancelled => 3
  | .withdrawn => 4
  | .refusedBad => 5
  | .refusedOwner => 6
  | .refusedBusy => 7
  | .refusedUnknown => 8

/-- R47. -/
def causeCode : EndCause → Byte
  | .noCause => 0
  | .plan => 1
  | .target => 2
  | .overtemp => 3
  | .serviceStop => 4
  | .modelNone => 5
  | .paidBlock => 6
  | .requestEnd => 7
  | .portSilent => 8
  | .setupEnter => 9

/-- R184. -/
def probeStateCode : ProbeState → Byte
  | .unused => 0
  | .unread => 1
  | .ok => 2
  | .holding => 3
  | .failed => 4

/-- R184. -/
def modelStateCode : ModelState → Byte
  | .none => 0
  | .single => 1
  | .full => 2

/-- R184. -/
def cycleStateCode : CycleState → Byte
  | .off => 0
  | .counting => 1
  | .due => 2

/-- R185. -/
def grantStateCode : GrantState → Byte
  | .unused => 0
  | .idle => 1
  | .waiting => 2
  | .running => 3
  | .resting => 4

/-- R91. -/
def plannerStateCode : PlannerState → Byte
  | .idle => 0
  | .planningFull _ => 1
  | .planningLate _ => 2
  | .suspended => 3

/-- R185: 0 NONE, 1 DONE, 2 FAILED. -/
def storeResultCode : StoreResult → Byte
  | .noResult => 0
  | .done => 1
  | .failed => 2

/-- R144: 0 for EDGE and 1 for LEVEL. -/
def modeCode : TriggerMode → Byte
  | .edge => 0
  | .level => 1

/-- R185: a port number, or 0xFF for NONE. -/
def portCode : Option PortId → Byte
  | none => 0xFF
  | some p => byteOf p.val

/-- A frame index as a command returns it (00_scope.md, Numbering). -/
def frameByte (i : FrameId) : Byte := byteOf i.val

/-- A flag that takes a whole byte. -/
def boolByte (b : Bool) : Byte := if b then 1 else 0

/-! ## The frame -/

/-- Bytes 0 to 11 of a frame (R182). -/
def requestBytes (r : Request) : List Byte :=
  [r.kind, r.slot] ++ wordBytes r.tag ++ wordBytes r.target ++ wordBytes r.amount
    ++ wordBytes r.span ++ [r.cancel, 0]

/-- Bytes 12 to 19 of a frame (R182). -/
def resultBytes (r : Result) : List Byte :=
  [outcomeCode r.outcome, causeCode r.endCause] ++ wordBytes r.firstGrant
    ++ numberBytes r.periodsRun ++ wordBytes r.endPeriod

/-- The 20 bytes of a frame (R182). -/
def frameBytes (fr : Frame) : List Byte := requestBytes fr.request ++ resultBytes fr.result

/-- A word with its low byte replaced. -/
def withLow (w : Word) (b : Byte) : Word := wordOf b (w.extractLsb' 8 8)

/-- A word with its high byte replaced. -/
def withHigh (w : Word) (b : Byte) : Word := wordOf (w.extractLsb' 0 8) b

/-- One byte of the request fields written as given (R68, R182); byte 11 is the pad byte, which
stores 0 whatever is written. -/
def writeRequestByte (r : Request) (offset : Nat) (b : Byte) : Request :=
  match offset with
  | 0 => { r with kind := b }
  | 1 => { r with slot := b }
  | 2 => { r with tag := withLow r.tag b }
  | 3 => { r with tag := withHigh r.tag b }
  | 4 => { r with target := withLow r.target b }
  | 5 => { r with target := withHigh r.target b }
  | 6 => { r with amount := withLow r.amount b }
  | 7 => { r with amount := withHigh r.amount b }
  | 8 => { r with span := withLow r.span b }
  | 9 => { r with span := withHigh r.span b }
  | 10 => { r with cancel := b }
  | _ => r

/-- R68: the data bytes written from the offset onward. -/
def writeRequest (r : Request) (offset : Nat) : List Byte → Request
  | [] => r
  | b :: rest => writeRequest (writeRequestByte r offset b) (offset + 1) rest

/-! ## Larger results -/

/-- IDENT, 4 bytes (R185). -/
def identBytes (s : State) : List Byte :=
  wordBytes Config.partCode ++ [Config.revision, resetCauseByte s.part.cause]

/-- STATUS, 15 bytes (R162, R185). -/
def statusBytes (s : State) (p : PortId) : List Byte :=
  [byteOf p.val, portStatesByte s] ++ allPorts.map (fun q => byteOf (portOf s q).silence)
    ++ [portCode (setupHolder s), modelStateCode s.model.state] ++ wordBytes s.planner.period
    ++ numberBytes s.planner.secondsRemaining
    ++ [plannerStateCode s.planner.state, boolByte s.store.storing.isSome,
        storeResultCode s.store.lastStore]

/-- One probe slot in MODEL-READ, 4 bytes (R184). -/
def probeBytes (p : ProbeSlot) : List Byte :=
  [probeStateCode p.state, byteOf p.holdCount] ++ tempBytes p.lastValid

/-- The model part of MODEL-READ, bytes 0 to 57 (R20, R184). -/
def modelPart (s : State) : List Byte :=
  allLayers.flatMap (fun i => tempBytes s.model.layers[i])
    ++ (List.finRange 8).flatMap (fun n => probeBytes s.scanner.probes[n])
    ++ [modelStateCode s.model.state, boolByte s.model.inversion]

/-- The live energy part, bytes 58 to 61: formed at the command from the current layers and the
current settings (R37, R184). -/
def livePart (s : State) : List Byte :=
  numberBytes (storedEnergy s.store.image s.model.layers)
    ++ numberBytes (comfortEnergy s.store.image s.model.layers)

/-- The published part, bytes 62 to 71 (R37, R184). -/
def publishedPart (f : Published) : List Byte :=
  numberBytes f.comfort ++ numberBytes f.deficit ++ numberBytes f.reservation
    ++ [byteOf f.line, publishedFlagsByte f] ++ numberBytes f.need

/-- The protection part, bytes 72 to 78 (R135, R184). -/
def protectionPart (s : State) : List Byte :=
  [protectionFlagsByte s, cycleStateCode s.cycle.state] ++ numberBytes s.cycle.sinceSuccess
    ++ numberBytes s.cycle.sinceDue ++ [byteOf s.cycle.holdCount]

/-- MODEL-READ, 79 bytes (R163, R184). -/
def modelReadBytes (s : State) : List Byte :=
  modelPart s ++ livePart s ++ publishedPart s.planner.published ++ protectionPart s

/-- Bytes 0 to 13 of SOURCE-READ: the setup-only fields of the copy in force, and merit and
block-obey from the image as it stands (R164, R185). -/
def sourceRecordBytes (s : State) (k : SlotId) : List Byte :=
  let r := recordOf s k
  [portCode r.owner, boolByte (r.sourceClass == .paid), byteOf r.coilBottom.val,
   byteOf r.coilTop.val]
    ++ numberBytes r.ratedPower ++ numberBytes r.minPower
    ++ [byteOf (meritOf s.store.image k), boolByte (blockObey s.store.image k), byteOf r.minRun,
        byteOf r.minRest]
    ++ tempBytes r.ceiling

/-- Bytes 14 to 25 of SOURCE-READ: the grant record (R43, R185). -/
def grantRecordBytes (g : GrantRecord) : List Byte :=
  [grantStateCode g.state] ++ numberBytes g.power ++ tempBytes g.target ++ numberBytes g.runCount
    ++ [byteOf g.restCount] ++ wordBytes g.firstGrant
    ++ [boolByte g.requestGranted, byteOf g.rank]

/-- SOURCE-READ, 26 bytes (R164, R185). -/
def sourceReadBytes (s : State) (k : SlotId) : List Byte :=
  sourceRecordBytes s k ++ grantRecordBytes (grantOf s k)

/-- The image bytes SET-READ returns; the check word is formed at the moment of the read (R166,
R167). -/
def imageBytes (img : Image) (start count : Nat) : List Byte :=
  (List.range count).map fun j => imageByte (withCheckWord img) (start + j)

/-! ## The transaction -/

/-- R152: the byte a port sends as the `n`-th of a transaction whose command and argument bytes are
`received` in number: 0x00 in the command phase and at the turn byte, then the status byte, the
result bytes, and 0x00 after them. -/
def sentByte (received : Nat) (r : Response) (n : Nat) : Byte :=
  if n < received + 1 then 0 else (statusCode r.status :: r.bytes).getD (n - (received + 1)) 0

end Sys2Proof.Machine
end

