-- ==== Sys2Proof/Machine/Operands.lean ====
section
/-! DEFINITION. How the argument bytes of the commands are checked: the checks of a frame command
in the order of R66, the ranges of FILL (R68), SELECT and SET-READ (R167), ALERT-DONE (R145) and
SOURCE-READ (R164), and the permission of a SET-WRITE (R169). -/

namespace Sys2Proof.Machine

/-- Checks 1 and 2 of R66: the index names a frame, and the sending port owns it. -/
def namedFrame (s : State) (p : PortId) (index : Byte) : Except Status FrameId :=
  match frameIndex index with
  | none => .error .badArgument
  | some i => if ownerOf s i = some p then .ok i else .error .notOwner

/-- R66 for a command that is accepted in one frame state alone. -/
def frameInState (s : State) (p : PortId) (index : Byte) (st : FrameState) :
    Except Status FrameId :=
  match namedFrame s p index with
  | .error e => .error e
  | .ok i => if (frameOf s i).state = st then .ok i else .error .wrongState

/-- R68: offset 0 to 11, count 1 to 12, offset plus count at most 12. -/
def fillFits (offset count : Nat) : Bool :=
  offset ≤ 11 && 1 ≤ count && count ≤ 12 && offset + count ≤ 12

/-- R66 for FILL: the index, the owner, the offset and count, then the state. -/
def fillTarget (s : State) (p : PortId) (index offset : Byte) (data : List Byte) :
    Except Status FrameId :=
  match namedFrame s p index with
  | .error e => .error e
  | .ok i =>
    if !fillFits offset.toNat data.length then .error .badArgument
    else if (frameOf s i).state = .taken then .ok i
    else .error .wrongState

/-- R66 for FRAME-READ: any state but FREE. -/
def readableFrame (s : State) (p : PortId) (index : Byte) : Except Status FrameId :=
  match namedFrame s p index with
  | .error e => .error e
  | .ok i => if (frameOf s i).state = .free then .error .wrongState else .ok i

/-- R145: a kind number of 16 or more names no kind. -/
def kindOfNumber (b : Byte) : Option AlertKind :=
  AlertKind.all.find? fun k => k.number.val == b.toNat

/-- R167, R168: a count from the selector onward is 1 or more and stays within the 256 bytes. -/
def selectorFits (selector count : Nat) : Bool := count != 0 && selector + count ≤ 256

/-- R169: the status a write of one field returns, or none where it is permitted. -/
def fieldRefusal (s : State) (p : PortId) (access : FieldAccess) : Option Status :=
  match access with
  | .maskOf q => if q = p then none else some .notOwner
  | .liveOf k =>
    if (recordOf s k).owner = some p then none
    else if setupHolder s = some p then none
    else if inSetup s then some .notHolder
    else some .notOwner
  | .setupOnly =>
    if setupHolder s = some p then none
    else if inSetup s then some .notHolder
    else some .setupOnly

/-- R169: the fields a write reaches, in ascending offset order. -/
def reachedFields (start count : Nat) : List Field :=
  fieldTable.filter fun f => fieldReached start count f

/-- R169: "The first field whose write is not permitted gives the status". -/
def writeRefusal (s : State) (p : PortId) (start count : Nat) : Option Status :=
  (reachedFields start count).findSome? fun f => fieldRefusal s p f.access

end Sys2Proof.Machine
end

