-- ==== Sys2Proof/Machine/Router.lean ====
section
/-! DEFINITION. The Alert Router's shared operations: an occurrence (R142), a change of conditions
(R142, R143), a change of a mask (R146), a change of the trigger modes (R147), the emptying at
PORT-RESET (R149), and the attention line (R150). -/

namespace Sys2Proof.Machine

/-- The mode in force of a kind (R139). -/
def modeOf (s : State) (k : AlertKind) : TriggerMode := s.alerts.modes[k.number]

/-- A port is subscribed to a kind: the mask is read from the image as it stands (R140). -/
def subscribed (s : State) (p : PortId) (k : AlertKind) : Bool := maskHas s.store.image p k

/-- A port's pending set (R141). -/
def pendingOf (s : State) (p : PortId) : List AlertKind := s.alerts.pendingKinds[p]

/-- A port's awaiting-clear set (R141). -/
def awaitingOf (s : State) (p : PortId) : List AlertKind := s.alerts.awaiting[p]

/-- A set of kinds, listed in ascending kind number. -/
def kindSet (member : AlertKind → Bool) : List AlertKind := AlertKind.all.filter member

/-- A LEVEL kind is pending at a port exactly when the port is subscribed, the condition is true
and the kind is not awaiting clear there (R143). -/
def levelPending (s : State) (p : PortId) (k : AlertKind) : Bool :=
  subscribed s p k && condition s k && !(awaitingOf s p).contains k

/-- R142: an occurrence of a kind reaches each port in turn. At a subscribed port the kind joins the
pending set or merges there; at a port not subscribed a SETTINGS-LOST is held and any other kind
dropped. -/
def raiseOccurrence (k : AlertKind) (s : State) : State :=
  s.setAlerts { s.alerts with
    pendingKinds := each s.alerts.pendingKinds fun p pend =>
      kindSet fun j => pend.contains j || (j == k && subscribed s p k)
    heldLost := each s.alerts.heldLost fun p held =>
      held || (k == .settingsLost && !subscribed s p k) }

/-- R142, R143: the state `s` after an event that began in `before`, with each port's pending set
following the conditions the event changed. A level-capable kind in EDGE mode occurs where its
condition went from false to true; a kind in LEVEL mode is pending as R143 says. -/
def followConditions (before s : State) : State :=
  s.setAlerts { s.alerts with
    pendingKinds := each s.alerts.pendingKinds fun p pend =>
      kindSet fun j =>
        if levelCapable j then
          match modeOf s j with
          | .level => levelPending s p j
          | .edge => pend.contains j || (!condition before j && condition s j && subscribed s p j)
        else pend.contains j }

/-- R146: at a port whose mask changed from the one in `old`, each kind whose bit changed is
settled; the image in `s` is the new one. -/
def settleMask (old : Image) (s : State) (p : PortId) : State :=
  s.setAlerts { s.alerts with
    pendingKinds := modifyAt s.alerts.pendingKinds p fun pend =>
      kindSet fun j =>
        if maskHas old p j == subscribed s p j then pend.contains j
        else if !subscribed s p j then false
        else
          match modeOf s j with
          | .level => levelPending s p j
          | .edge => pend.contains j || (j == .settingsLost && s.alerts.heldLost[p])
    heldLost := modifyAt s.alerts.heldLost p fun held =>
      held && !(!maskHas old p .settingsLost && subscribed s p .settingsLost) }

/-- R140, R146: every port's mask settled after the image has changed from `old`. -/
def settleMasks (old : Image) (s : State) : State := allPorts.foldl (settleMask old) s

/-- R147: the new trigger modes in force. A kind whose mode changed leaves both sets at every port
and is evaluated afresh: LEVEL is pending as R143 says, EDGE is not pending until its next
occurrence. -/
def changeModes (new : Vector TriggerMode 16) (s : State) : State :=
  let changed (j : AlertKind) : Bool := s.alerts.modes[j.number] != new[j.number]
  s.setAlerts { s.alerts with
    modes := new
    pendingKinds := each s.alerts.pendingKinds fun p pend =>
      kindSet fun j =>
        if changed j then new[j.number] == .level && subscribed s p j && condition s j
        else pend.contains j
    awaiting := each s.alerts.awaiting fun _ wait =>
      kindSet fun j => wait.contains j && !changed j }

/-- R149: PORT-RESET empties the port's two sets and evaluates its LEVEL kinds afresh. -/
def emptyAlerts (p : PortId) (s : State) : State :=
  s.setAlerts { s.alerts with
    pendingKinds := s.alerts.pendingKinds.set p
      (kindSet fun j => modeOf s j == .level && subscribed s p j && condition s j)
    awaiting := s.alerts.awaiting.set p [] }

/-- R150: the attention line of a port is asserted while its reply queue or its pending set is
non-empty; from the start of any reset until the start-up load completes it is not. -/
def attentionLine (s : State) (p : PortId) : Bool :=
  isRunning s && (!(replyQueue s p).isEmpty || !(pendingOf s p).isEmpty)

end Sys2Proof.Machine
end

