-- ==== Sys2Proof/Machine/Ports.lean ====
section
/-! DEFINITION. How a port takes a command (R153, R155, R157), and the meanings of
TRANSACTION_DISCARDED, BAD_COMMAND, IDENT, STATUS, MODEL_READ and SOURCE_READ. -/

namespace Sys2Proof.Machine

/-- A command's answer: the response the port will send and the state after the effect. -/
abbrev Answer := Response × State

/-- An accepted command with its result bytes. -/
def accepted (bytes : List Byte) (s : State) : Answer := (⟨.ok, bytes⟩, s)

/-- A refused command: no effect, and its result bytes read 0x00 (R156). -/
def refused (status : Status) (s : State) : Answer := (⟨status, []⟩, s)

/-- A destructive read that found its collection empty (R156). -/
def noItem (bytes : List Byte) (s : State) : Answer := (⟨.noItem, bytes⟩, s)

/-- R157: a complete command makes its port ACTIVE with silence count 0. -/
def heard (p : PortId) (s : State) : State :=
  modPort s p fun port => { port with active := true, silence := 0 }

/-- R153: the response is fixed at the moment of effect. -/
def answered (p : PortId) (a : Answer) : State :=
  modPort a.2 p fun port => { port with response := some a.1 }

/-- R153, R155, R157: a command takes effect on its port. From the start of any reset until the
start-up load completes no port decodes, nor does it in a transaction whose select fell before; the
bytes are then disregarded. -/
def serve (p : PortId) (body : State → Answer) (s : State) : Host.Outcome State Fault Refusal :=
  if decodes s p then .next (answered p (body (heard p s))) else .next s

/-- TRANSACTION_DISCARDED: R154; no effect on any block, and it does not count for liveness. -/
def execTransactionDiscarded (_p : PortId) (s : State) : Host.Outcome State Fault Refusal :=
  .next s

/-- BAD_COMMAND: R153, R183; complete, refused with BAD-COMMAND. -/
def execBadCommand (p : PortId) (_code : Byte) (s : State) : Host.Outcome State Fault Refusal :=
  serve p (refused .badCommand) s

/-- IDENT: R162. -/
def execIdent (p : PortId) (s : State) : Host.Outcome State Fault Refusal :=
  serve p (fun t => accepted (identBytes t) t) s

/-- STATUS: R162. -/
def execStatus (p : PortId) (s : State) : Host.Outcome State Fault Refusal :=
  serve p (fun t => accepted (statusBytes t p) t) s

/-- MODEL-READ: R163; never refused. -/
def execModelRead (p : PortId) (s : State) : Host.Outcome State Fault Refusal :=
  serve p (fun t => accepted (modelReadBytes t) t) s

/-- SOURCE-READ: R164; a slot of 6 or more returns BAD-ARGUMENT. -/
def sourceReadAnswer (slot : Byte) (s : State) : Answer :=
  match slotOf slot with
  | none => refused .badArgument s
  | some k => accepted (sourceReadBytes s k) s

/-- SOURCE-READ: R164. -/
def execSourceRead (p : PortId) (slot : Byte) (s : State) : Host.Outcome State Fault Refusal :=
  serve p (sourceReadAnswer slot) s

end Sys2Proof.Machine
end

