-- ==== Sys2Proof/Machine/Alerts.lean ====
section
/-! DEFINITION. The meanings of ALERT_TAKE (R144) and ALERT_DONE (R145). -/

namespace Sys2Proof.Machine

/-- The lowest-numbered pending kind of a port (R141, R144). -/
def lowestPending (s : State) (p : PortId) : Option AlertKind :=
  AlertKind.all.find? fun k => (pendingOf s p).contains k

/-- R144: the kind leaves the pending set, and a LEVEL kind joins the awaiting-clear set. -/
def takeKind (s : State) (p : PortId) (k : AlertKind) : State :=
  s.setAlerts { s.alerts with
    pendingKinds := modifyAt s.alerts.pendingKinds p fun pend =>
      kindSet fun j => pend.contains j && j != k
    awaiting := modifyAt s.alerts.awaiting p fun wait =>
      kindSet fun j => wait.contains j || (j == k && modeOf s k == .level) }

/-- R144: the lowest pending kind and its mode, or NONE with 0xFF and 0. -/
def alertTakeAnswer (p : PortId) (s : State) : Answer :=
  match lowestPending s p with
  | none => noItem [0xFF, 0] s
  | some k => accepted [byteOf k.number.val, modeCode (modeOf s k)] (takeKind s p k)

/-- ALERT-TAKE: R144. -/
def execAlertTake (p : PortId) (s : State) : Host.Outcome State Fault Refusal :=
  serve p (alertTakeAnswer p) s

/-- R145: the kind leaves the awaiting-clear set, and becomes pending again if the port is
subscribed to it and its condition is true. -/
def acknowledgeKind (s : State) (p : PortId) (k : AlertKind) : State :=
  s.setAlerts { s.alerts with
    pendingKinds := modifyAt s.alerts.pendingKinds p fun pend =>
      kindSet fun j => pend.contains j || (j == k && subscribed s p k && condition s k)
    awaiting := modifyAt s.alerts.awaiting p fun wait =>
      kindSet fun j => wait.contains j && j != k }

/-- R145: its two checks, then the acknowledgement. -/
def alertDoneAnswer (p : PortId) (kind : Byte) (s : State) : Answer :=
  match kindOfNumber kind with
  | none => refused .badArgument s
  | some k =>
    if (awaitingOf s p).contains k then accepted [] (acknowledgeKind s p k)
    else refused .wrongState s

/-- ALERT-DONE: R145. -/
def execAlertDone (p : PortId) (kind : Byte) (s : State) : Host.Outcome State Fault Refusal :=
  serve p (alertDoneAnswer p kind) s

end Sys2Proof.Machine
end

