-- ==== Sys2Proof/Machine/Frames.lean ====
section
/-! DEFINITION. The seven frame commands (R66 to R73) and their meanings. -/

namespace Sys2Proof.Machine

/-- R67: the head of the free list is taken, cleared and made TAKEN; an empty list gives NONE. -/
def takeAnswer (p : PortId) (s : State) : Answer :=
  match freeList s p with
  | [] => noItem [0xFF] s
  | i :: rest =>
    accepted [frameByte i] (modFrame (setFreeList s p rest) i fun _ => clearedFrame .taken)

/-- TAKE: R67. -/
def execTake (p : PortId) (s : State) : Host.Outcome State Fault Refusal := serve p (takeAnswer p) s

/-- R68: the data is written into the request fields of a TAKEN frame. -/
def fillAnswer (p : PortId) (index offset : Byte) (data : List Byte) (s : State) : Answer :=
  match fillTarget s p index offset data with
  | .error e => refused e s
  | .ok i =>
    accepted [] (modFrame s i fun fr =>
      { fr with request := writeRequest fr.request offset.toNat data })

/-- FILL: R68. -/
def execFill (p : PortId) (index offset : Byte) (data : List Byte) (s : State) :
    Host.Outcome State Fault Refusal :=
  serve p (fillAnswer p index offset data) s

/-- R69: the 20 bytes of a frame that is not FREE. -/
def frameReadAnswer (p : PortId) (index : Byte) (s : State) : Answer :=
  match readableFrame s p index with
  | .error e => refused e s
  | .ok i => accepted (frameBytes (frameOf s i)) s

/-- FRAME-READ: R69. -/
def execFrameRead (p : PortId) (index : Byte) (s : State) : Host.Outcome State Fault Refusal :=
  serve p (frameReadAnswer p index) s

/-- The result fields at 0 (R70). -/
def clearedResult : Result := (clearedFrame .posted).result

/-- R70: the result fields are cleared, and the frame joins the tail of the post list. -/
def postAnswer (p : PortId) (index : Byte) (s : State) : Answer :=
  match frameInState s p index .taken with
  | .error e => refused e s
  | .ok i =>
    accepted [] (setPostList
      (modFrame s i fun fr => { fr with state := .posted, result := clearedResult }) p
      (postList s p ++ [i]))

/-- POST: R70. -/
def execPost (p : PortId) (index : Byte) (s : State) : Host.Outcome State Fault Refusal :=
  serve p (postAnswer p index) s

/-- R71, R73: a frame becomes FREE and joins the tail of the free list, its bytes as they were. -/
def freed (s : State) (p : PortId) (i : FrameId) : State :=
  setFreeList (setFrameState s i .free) p (freeList s p ++ [i])

/-- R71: a TAKEN frame is given back. -/
def giveBackAnswer (p : PortId) (index : Byte) (s : State) : Answer :=
  match frameInState s p index .taken with
  | .error e => refused e s
  | .ok i => accepted [] (freed s p i)

/-- GIVE-BACK: R71. -/
def execGiveBack (p : PortId) (index : Byte) (s : State) : Host.Outcome State Fault Refusal :=
  serve p (giveBackAnswer p index) s

/-- R72: the head of the reply queue is removed and its frame becomes COLLECTED; an empty queue
gives NONE with index 0xFF and outcome 0. -/
def replyTakeAnswer (p : PortId) (s : State) : Answer :=
  match replyQueue s p with
  | [] => noItem [0xFF, 0] s
  | i :: rest =>
    accepted [frameByte i, outcomeCode (frameOf s i).result.outcome]
      (setReplyQueue (setFrameState s i .collected) p rest)

/-- REPLY-TAKE: R72. -/
def execReplyTake (p : PortId) (s : State) : Host.Outcome State Fault Refusal :=
  serve p (replyTakeAnswer p) s

/-- R73: a COLLECTED frame is released. -/
def releaseAnswer (p : PortId) (index : Byte) (s : State) : Answer :=
  match frameInState s p index .collected with
  | .error e => refused e s
  | .ok i => accepted [] (freed s p i)

/-- RELEASE: R73. -/
def execRelease (p : PortId) (index : Byte) (s : State) : Host.Outcome State Fault Refusal :=
  serve p (releaseAnswer p index) s

end Sys2Proof.Machine
end

