-- ==== Sys2Proof/Machine/Grants.lean ====
section
/-! DEFINITION. The Source Table's shared operations: the end of a grant (R47), safety revocations
(R50), the end of a held request (R80), the period start's update (R52), the taking of a grant
(R46), the turn ranks (R56), and the permit lines (R54). -/

namespace Sys2Proof.Machine

/-- R54: permit line Kn is high exactly while slot Sn is RUNNING, and low from the start of any
reset until the start-up load completes. -/
def permitLine (s : State) (k : SlotId) : Bool := isRunning s && isGrantRunning s k

/-! ## The end of a grant -/

/-- R47, step 2: the cause goes into the end-cause field of the request held for the slot. -/
def recordCause (cause : EndCause) (s : State) (k : SlotId) : State :=
  match heldFor s k with
  | none => s
  | some i => modFrame s i fun fr => { fr with result := { fr.result with endCause := cause } }

/-- R47, steps 1 and 3: the grant record after a grant end. -/
def endedGrant (minRest : Nat) (requestHeld : Bool) (g : GrantRecord) : GrantRecord :=
  if 1 ≤ minRest then { g with state := .resting, power := 0, restCount := minRest }
  else { g with state := if requestHeld then .waiting else .idle, power := 0 }

/-- R47: a grant end, in one step; a source that is not RUNNING is not touched (R50, R51). -/
def endGrant (cause : EndCause) (s : State) (k : SlotId) : State :=
  if isGrantRunning s k then
    modGrant (recordCause cause s k) k
      (endedGrant (recordOf s k).minRest (heldFor s k).isSome)
  else s

/-- The grants of several slots end with one cause. -/
def endGrants (cause : EndCause) (s : State) (slots : List SlotId) : State :=
  slots.foldl (endGrant cause) s

/-- R50: a safety revocation that ends every RUNNING grant, FREE and PAID. -/
def revokeAll (cause : EndCause) (s : State) : State := endGrants cause s (runningSlots s)

/-- R50, R127: the paid-block revocation ends the grants of the sources X0 holds back. -/
def revokePaidBlock (s : State) : State :=
  endGrants .paidBlock s ((runningSlots s).filter fun k => heldBackByX0 s k)

/-! ## The end of a held request -/

/-- R45: a WAITING source returns to IDLE when its request ends; a RESTING one stays RESTING. -/
def releaseSource (s : State) (k : SlotId) : State :=
  if isGrantWaiting s k then modGrant s k fun g => { g with state := .idle } else s

/-- R75, R78, R80: the frame is reported with an outcome: its end period is the current period
number, it becomes REPORTED, and its entry joins the tail of its port's reply queue. -/
def reportFrame (outcome : FrameOutcome) (s : State) (i : FrameId) : State :=
  let s1 := modFrame s i fun fr =>
    { fr with state := .reported
              result := { fr.result with outcome := outcome, endPeriod := s.planner.period } }
  match ownerOf s i with
  | none => s1
  | some p => setReplyQueue s1 p (replyQueue s1 p ++ [i])

/-- R80: a held request ends; one that is no longer HELD is left alone. -/
def endRequest (outcome : FrameOutcome) (s : State) (i : FrameId) : State :=
  if isHeld s i then
    match heldSlot s i with
    | none => reportFrame outcome s i
    | some k => releaseSource (reportFrame outcome s i) k
  else s

/-- R80: several requests end in one event, in ascending frame index. -/
def endRequests (outcome : FrameId → FrameOutcome) (s : State) (ended : FrameId → Bool) : State :=
  (allFrames.filter ended).foldl (fun t i => endRequest (outcome i) t i) s

/-- R51, R78: the grant of the source a held request concerns ends with cause REQUEST-END. -/
def endGrantOf (s : State) (i : FrameId) : State :=
  match heldSlot s i with
  | none => s
  | some k => endGrant .requestEnd s k

/-! ## The period start -/

/-- R52: a grant record at a period start, by the state it was in when the period start arrived. -/
def countedGrant (requestHeld : Bool) (g : GrantRecord) : GrantRecord :=
  match g.state with
  | .running => { g with runCount := saturate (g.runCount + 1) }
  | .resting =>
    if g.restCount - 1 = 0 then
      { g with state := if requestHeld then .waiting else .idle, restCount := 0 }
    else { g with restCount := g.restCount - 1 }
  | .idle => g
  | .waiting => g
  | .unused => g

/-- R52: one period run is added to the request of every RUNNING source. -/
def countPeriodsRun (s : State) : State :=
  eachFrame s fun i fr =>
    match heldSlot s i with
    | none => fr
    | some k =>
      if isGrantRunning s k then
        { fr with result := { fr.result with periodsRun := saturate (fr.result.periodsRun + 1) } }
      else fr

/-- R52: the Source Table takes a period start. -/
def countSources (s : State) : State :=
  eachGrant (countPeriodsRun s) fun k g => countedGrant (heldFor s k).isSome g

/-! ## Taking a grant -/

/-- R46: a grant is dropped, whatever the source's state, while any of these holds. -/
def grantBarred (s : State) (k : SlotId) : Bool :=
  s.safety.overtemp || lineActive s .x1 || s.model.state == .none || inSetup s ||
    !ownerActive s k || heldBackByX0 s k

/-- R46, R57: the first-grant period goes into the request when the request-granted mark is
clear. -/
def recordFirstGrant (s : State) (k : SlotId) : State :=
  if (grantOf s k).requestGranted then s
  else
    match heldFor s k with
    | none => s
    | some i =>
      modFrame s i fun fr => { fr with result := { fr.result with firstGrant := s.planner.period } }

/-- R46: a grant begins. -/
def beginGrant (s : State) (e : GrantEntry) : State :=
  modGrant (recordFirstGrant s e.slot) e.slot fun g =>
    { g with state := .running, power := e.power, target := e.target, runCount := 0,
             firstGrant := s.planner.period, requestGranted := true }

/-- R46: a grant continues. -/
def continueGrant (s : State) (e : GrantEntry) : State :=
  modGrant s e.slot fun g => { g with power := e.power, target := e.target }

/-- R46: the entry finds its source in the state the plan saw, and nothing bars the grant. -/
def grantTakes (s : State) (e : GrantEntry) : Bool :=
  !grantBarred s e.slot &&
    (if e.wasRunning then isGrantRunning s e.slot else isGrantWaiting s e.slot)

/-- R46: the Source Table takes one grant, or drops it. -/
def takeGrant (s : State) (e : GrantEntry) : State :=
  if grantTakes s e then (if e.wasRunning then continueGrant s e else beginGrant s e) else s

/-! ## Turn ranks -/

/-- R56: one rotation: every rank below the winner's rises by one, and the winner's becomes 0. -/
def rotateRanks (s : State) (winner : SlotId) : State :=
  eachGrant s fun k g =>
    if k = winner then { g with rank := 0 }
    else if g.rank < (grantOf s winner).rank then { g with rank := g.rank + 1 }
    else g

end Sys2Proof.Machine
end

