-- ==== Sys2Proof/Machine/Planning.lean ====
section
/-! DEFINITION. The Charge Planner: the forming of a full or late plan on the inputs of its
beginning (R95 to R103, R108, R109), its completion (R104 to R106, R110), and the meanings of
PLAN_COMPLETION, LATE_PLAN_COMPLETION and SECONDS_REMAINING_TICK. -/

namespace Sys2Proof.Machine

/-- Which of the two plans (R91). -/
inductive PlanKind where
  | full
  | late
  deriving DecidableEq, Repr

/-! ## Forming a plan -/

/-- R96: a plan is blocked by overtemperature, X1, the live model or the snapshot model. -/
def planBlocked (s : State) : Bool :=
  s.safety.overtemp || lineActive s .x1 || s.model.state == .none ||
    s.planner.snapshot.model == .none

/-- R97, R108: the snapshot and the held RESERVE and COMFORT requests, with the settings at the
plan's beginning. -/
def planFigures (s : State) : Figures :=
  formFigures
    { layers := s.planner.snapshot.layers
      model := s.planner.snapshot.model
      cycle := s.planner.snapshot.cycle
      comfortAmounts := heldAmounts s .comfort
      reserveAmounts := heldAmounts s .reserve
      settings := s.store.image }

/-- R53, rows 1 and 2: the target of a grant under a held request, before the Disinfection Cycle. -/
def requestTarget (s : State) (k : SlotId) (i : FrameId) : Int :=
  let ceiling := min (recordOf s k).ceiling (tMax s.store.image)
  if kindOf s i = some .heat then min (frameOf s i).request.target.toInt ceiling else ceiling

/-- The Disinfection Cycle was DUE in the snapshot (R132). -/
def dueInSnapshot (s : State) : Bool := s.planner.snapshot.cycle == .due

/-- R53, R98: the effective target that a grant of the slot would carry. -/
def effectiveTarget (s : State) (k : SlotId) (i : FrameId) : Int :=
  if (recordOf s k).sourceClass = .paid ∧ dueInSnapshot s then
    min (max (requestTarget s k i) (tDis s.store.image)) (recordOf s k).ceiling
  else requestTarget s k i

/-- R98: the snapshot temperature of the coil-top layer is below the effective target. -/
def targetTest (s : State) (k : SlotId) (i : FrameId) : Bool :=
  s.planner.snapshot.layers[(recordOf s k).coilTop] < effectiveTarget s k i

/-- A used slot with a held request of a class. -/
def hasRequest (s : State) (c : SourceClass) (k : SlotId) : Bool :=
  (recordOf s k).owner.isSome && (recordOf s k).sourceClass == c && (heldFor s k).isSome

/-- The target test on the slot's held request. -/
def passesTarget (s : State) (k : SlotId) : Bool :=
  match heldFor s k with
  | none => false
  | some i => targetTest s k i

/-- R100: RUNNING in the inputs of a full plan with a run count below its minimum run. -/
def heldOver (s : State) (kind : PlanKind) (k : SlotId) : Bool :=
  kind == .full && isGrantRunning s k && (grantOf s k).runCount < (recordOf s k).minRun

/-- R99, R109: the grant states a plan considers: WAITING, and RUNNING for a full plan. -/
def considered (s : State) (kind : PlanKind) (k : SlotId) : Bool :=
  isGrantWaiting s k || (kind == .full && isGrantRunning s k)

/-- R99, R100: the FREE sources the plan grants. -/
def freeGranted (s : State) (kind : PlanKind) (k : SlotId) : Bool :=
  hasRequest s .free k &&
    (heldOver s kind k || (considered s kind k && ownerActive s k && passesTarget s k))

/-- R100: a held-over PAID source. -/
def heldOverPaid (s : State) (kind : PlanKind) (k : SlotId) : Bool :=
  hasRequest s .paid k && heldOver s kind k

/-- R99, R109: an eligible candidate. -/
def eligible (s : State) (kind : PlanKind) (lineInUse : Nat) (k : SlotId) : Bool :=
  hasRequest s .paid k && considered s kind k && !heldOver s kind k && ownerActive s k &&
    !heldBackByX0 s k && lineInUse ≤ (recordOf s k).coilBottom.val && passesTarget s k &&
    (!dueInSnapshot s || tDis s.store.image ≤ (recordOf s k).ceiling)

/-- R101: merit ascending, and among equal merits turn rank descending. -/
def candidateOrder (s : State) (member : SlotId → Bool) : List SlotId :=
  (List.range 8).flatMap fun merit =>
    [5, 4, 3, 2, 1, 0].flatMap fun rank =>
      allSlots.filter fun k =>
        member k && meritOf s.store.image k == merit && (grantOf s k).rank == rank

/-- R102: the greater of the minimum power and the lesser of the rated power and the remaining
need. -/
def allotted (s : State) (k : SlotId) (remaining : Nat) : Nat :=
  max (recordOf s k).minPower (min (recordOf s k).ratedPower remaining)

/-- R102, steps 1 and 3: every held-over source is granted; what is left of the need. -/
def allotHeldOver (s : State) : List SlotId → Nat → List (SlotId × Nat) × Nat
  | [], remaining => ([], remaining)
  | k :: rest, remaining =>
    let power := allotted s k remaining
    let later := allotHeldOver s rest (remaining - power)
    ((k, power) :: later.1, later.2)

/-- R102, steps 2 to 4: candidates are granted while the remaining need is above 0. -/
def allotCandidates (s : State) : List SlotId → Nat → List (SlotId × Nat)
  | [], _ => []
  | k :: rest, remaining =>
    if remaining = 0 then []
    else
      let power := allotted s k remaining
      (k, power) :: allotCandidates s rest (remaining - power)

/-- R103: the entry of a granted slot; a slot without a held request has none. -/
def grantEntry (s : State) (granted : SlotId × Nat) : Option GrantEntry :=
  (heldFor s granted.1).map fun i =>
    { slot := granted.1
      frame := i
      power := granted.2
      target := effectiveTarget s granted.1 i
      wasRunning := isGrantRunning s granted.1
      merit := meritOf s.store.image granted.1 }

/-- R109: the sum of the granted powers of the RUNNING PAID sources. -/
def runningPaidPower (s : State) : Nat :=
  ((runningSlots s).map fun k =>
    if (recordOf s k).sourceClass = .paid then (grantOf s k).power else 0).sum

/-- R102, R109: the need the allotment starts from. -/
def startingNeed (s : State) (kind : PlanKind) (need : Nat) : Nat :=
  match kind with
  | .full => need
  | .late => need - runningPaidPower s

/-- R95 to R103, R109: everything a plan decides at its beginning. -/
def formPlan (kind : PlanKind) (s : State) : Plan :=
  let figures := planFigures s
  if planBlocked s then
    { grants := [], revocations := [], contested := [], figures := figures.published }
  else
    let candidates := candidateOrder s (eligible s kind figures.lineInUse)
    let free := (allSlots.filter fun k => freeGranted s kind k).map fun k =>
      (k, (recordOf s k).ratedPower)
    let continued := allotHeldOver s (candidateOrder s (heldOverPaid s kind))
      (startingNeed s kind figures.published.need)
    let paid := allotCandidates s candidates continued.2
    let granted := free ++ continued.1 ++ paid
    { grants := granted.filterMap (grantEntry s)
      revocations :=
        match kind with
        | .full => (runningSlots s).filter fun k => !(granted.map (·.1)).contains k
        | .late => []
      contested :=
        (candidates.filter fun k => !(paid.map (·.1)).contains k).map (meritOf s.store.image)
      figures := figures.published }

/-- R92, R95: a full plan begins; the late-request mark is cleared. -/
def beginFullPlan (s : State) : State :=
  s.setPlanner { s.planner with state := .planningFull (formPlan .full s), lateMark := false }

/-- R108: with the planner IDLE and the mark set, the mark is cleared and the late plan begins when
the seconds remaining are at least the threshold. -/
def beginMarkedLatePlan (s : State) : State :=
  if s.planner.lateMark then
    if s.planner.lateThreshold ≤ s.planner.secondsRemaining then
      s.setPlanner { s.planner with state := .planningLate (formPlan .late s), lateMark := false }
    else s.setPlanner { s.planner with lateMark := false }
  else s

/-- R107: the late-request mark is set, or left set. -/
def markLate (s : State) : State := s.setPlanner { s.planner with lateMark := true }

/-- R92, R107: an ask for a late plan reaches the planner. In IDLE the mark is set and the late plan
begins by R108; in PLANNING the mark is set, so that repeated asks merge; in SUSPENDED the ask is
discarded. -/
def latePlanAsk (s : State) : State :=
  match s.planner.state with
  | .idle => beginMarkedLatePlan (markLate s)
  | .planningFull _ => markLate s
  | .planningLate _ => markLate s
  | .suspended => s

/-! ## Completion -/

/-- R104: the completion re-check of an entry. -/
def entryPasses (s : State) (e : GrantEntry) : Bool :=
  isHeld s e.frame && ownerActive s e.slot && !s.safety.overtemp && !lineActive s .x1 &&
    s.model.state != .none && !heldBackByX0 s e.slot

/-- R56: the entry moves its source from WAITING to RUNNING, and it is a PAID source of a contested
group. -/
def wins (s : State) (contested : List Nat) (e : GrantEntry) : Bool :=
  grantTakes s e && !e.wasRunning && (recordOf s e.slot).sourceClass == .paid &&
    contested.contains e.merit

/-- R37, R106: the plan's figures become the published figures; COMFORT-LOW and RESERVE-YIELD
follow. -/
def publish (figures : Published) (s : State) : State :=
  followConditions s (s.setPlanner { s.planner with published := figures })

/-- R104: the entries that pass are handed to the Source Table in grant order, then the
revocations; the ranks rotate for the contested winners in grant order, and the figures are
published. -/
def applyPlan (plan : Plan) (s : State) : State :=
  let passing := plan.grants.filter (entryPasses s)
  let winners := passing.filter (wins s plan.contested)
  let s1 := passing.foldl takeGrant s
  let s2 := endGrants .plan s1 plan.revocations
  let s3 := winners.foldl (fun t e => rotateRanks t e.slot) s2
  publish plan.figures s3

/-- The planner leaves PLANNING for IDLE (R92). -/
def planEnded (s : State) : State := s.setPlanner { s.planner with state := .idle }

/-- PLAN_COMPLETION: R104 to the full plan in flight; none in flight, nothing (log entry 3). -/
def execPlanCompletion (s : State) : Host.Outcome State Fault Refusal :=
  match s.planner.state with
  | .planningFull plan => .next (beginMarkedLatePlan (planEnded (applyPlan plan s)))
  | .planningLate _ => .next s
  | .idle => .next s
  | .suspended => .next s

/-- LATE_PLAN_COMPLETION: R110; with fewer seconds remaining than the threshold it applies
nothing. None in flight, nothing (log entry 3). -/
def execLatePlanCompletion (s : State) : Host.Outcome State Fault Refusal :=
  match s.planner.state with
  | .planningLate plan =>
    if s.planner.lateThreshold ≤ s.planner.secondsRemaining then
      .next (beginMarkedLatePlan (planEnded (applyPlan plan s)))
    else .next (beginMarkedLatePlan (planEnded s))
  | .planningFull _ => .next s
  | .idle => .next s
  | .suspended => .next s

/-- SECONDS_REMAINING_TICK: R88; the timer stands still while it is not running, and a second that
passes at 1 is PERIOD_START (log entry 3). -/
def execSecondsRemainingTick (s : State) : Host.Outcome State Fault Refusal :=
  if isRunning s && s.planner.timerRunning && 1 < s.planner.secondsRemaining then
    .next (s.setPlanner { s.planner with secondsRemaining := s.planner.secondsRemaining - 1 })
  else .next s

end Sys2Proof.Machine
end

