-- ==== Sys2Proof/Machine/Intake.lean ====
section
/-! DEFINITION. The intake (R74 to R78, R107) and the meaning of INTAKE_TAKE. -/

namespace Sys2Proof.Machine

/-! ## Validation -/

/-- R75, checks 2 and 3, for a HEAT or STANDING request of a port. -/
def sourceRefusal (s : State) (p : PortId) (slot : Byte) : Option FrameOutcome :=
  match slotOf slot with
  | none => some .refusedOwner
  | some k =>
    if (recordOf s k).owner ≠ some p then some .refusedOwner
    else if (heldFor s k).isSome then some .refusedBusy
    else none

/-- R75, check 4: the frame a CANCEL names, if it is a HELD frame of the posting port. -/
def cancelTarget (s : State) (p : PortId) (cancel : Byte) : Option FrameId :=
  match frameIndex cancel with
  | none => none
  | some i => if ownerOf s i = some p ∧ isHeld s i then some i else none

/-- R75: the outcome of the first check that fails, or none for a frame that passes. -/
def intakeRefusal (s : State) (p : PortId) (r : Request) : Option FrameOutcome :=
  match requestKind r.kind with
  | none => some .refusedBad
  | some .heat => sourceRefusal s p r.slot
  | some .standing => sourceRefusal s p r.slot
  | some .reserve => none
  | some .comfort => none
  | some .cancel => if (cancelTarget s p r.cancel).isSome then none else some .refusedUnknown

/-! ## Acceptance -/

/-- R76: a HEAT target raised to at least Tcold + 1, then lowered to at most the ceiling. -/
def clampedTarget (s : State) (r : Request) : Word :=
  match slotOf r.slot with
  | none => r.target
  | some k =>
    BitVec.ofInt 16 (min (max r.target.toInt (tCold s.store.image + 1)) (recordOf s k).ceiling)

/-- R76: the span of a RESERVE or COMFORT request held to 1 to 1440. -/
def clampedSpan (r : Request) : Word := BitVec.ofNat 16 (clampNat 1 1440 r.span.toNat)

/-- R76: the used fields of an accepted request, clamped. -/
def clampedRequest (s : State) (r : Request) : Request :=
  match requestKind r.kind with
  | some .heat => { r with target := clampedTarget s r }
  | some .reserve => { r with span := clampedSpan r }
  | some .comfort => { r with span := clampedSpan r }
  | some .standing => r
  | some .cancel => r
  | none => r

/-- R77: the frame becomes HELD with an age of 0, its request fields as clamped. -/
def holdFrame (s : State) (i : FrameId) : State :=
  modFrame s i fun fr => { fr with state := .held 0, request := clampedRequest s fr.request }

/-- R45, R77: an IDLE source goes to WAITING, any other keeps its state; the request-granted mark is
cleared. -/
def acceptForSource (s : State) (k : SlotId) : State :=
  modGrant s k fun g =>
    { g with state := if g.state = .idle then .waiting else g.state, requestGranted := false }

/-- R78: the cancelled request ends CANCELLED, its source's grant first; then the CANCEL frame is
reported DONE. -/
def cancelRequest (s : State) (i target : FrameId) : State :=
  reportFrame .done (endRequest .cancelled (endGrantOf s target) target) i

/-- R75 to R78: the frame is settled: refused and reported, or accepted. -/
def settleFrame (s : State) (p : PortId) (i : FrameId) : State :=
  let r := (frameOf s i).request
  match intakeRefusal s p r with
  | some outcome => reportFrame outcome s i
  | none =>
    match requestKind r.kind with
    | some .cancel =>
      match cancelTarget s p r.cancel with
      | none => s
      | some target => cancelRequest s i target
    | some .heat =>
      match slotOf r.slot with
      | none => s
      | some k => acceptForSource (holdFrame s i) k
    | some .standing =>
      match slotOf r.slot with
      | none => s
      | some k => acceptForSource (holdFrame s i) k
    | some .reserve => holdFrame s i
    | some .comfort => holdFrame s i
    | none => s

/-- R77, R107: the acceptance of a HEAT or STANDING request asks for a late plan, provided the timer
is running and the seconds remaining are at least the threshold in force. -/
def asksForLatePlan (s : State) (p : PortId) (i : FrameId) : Bool :=
  let r := (frameOf s i).request
  (intakeRefusal s p r).isNone && kindNamesSource (requestKind r.kind) &&
    s.planner.timerRunning && s.planner.lateThreshold ≤ s.planner.secondsRemaining

/-- R74: the intake takes the head of a port's post list and settles it. -/
def settleHead (p : PortId) (s : State) : State :=
  match postList s p with
  | [] => s
  | i :: rest => settleFrame (setPostList s p rest) p i

/-- R77: taking the head of a port's post list asks for a late plan. -/
def headAsks (s : State) (p : PortId) : Bool :=
  match postList s p with
  | [] => false
  | i :: _ => asksForLatePlan s p i

/-- R74: the other ports whose head frame is taken between the ask and the beginning of the late
plan; the spec leaves open which (log entry 8). -/
def takenBeforePlan (s : State) (p : PortId) : List PortId :=
  allPorts.filter fun q =>
    q != p && !(postList s q).isEmpty && Config.takenBeforeLatePlan s.openDraws q

/-- R74, R107: an ask of a head taken before the late plan begins reaches the planner after its
beginning; the spec leaves open which asks do (log entry 24). A take of one port does not change
whether that of another asks (R74). -/
def asksAfterBeginning (s : State) (others : List PortId) : Bool :=
  others.any fun q => headAsks s q && !Config.askMerged s.openDraws q

/-- R74, R107, R108: the take, and its ask as an event of its own, with the heads of other ports that
are taken before the ask begins the late plan and their asks that come after its beginning. The
intake is not held off at a take, so the ask finds the planner IDLE and a later ask finds it
PLANNING (R92). -/
def takeThenPlan (p : PortId) (s : State) : State :=
  let s1 := settleHead p s
  if headAsks s p then
    let others := takenBeforePlan s1 p
    let s2 := latePlanAsk (others.foldl (fun t q => settleHead q t) s1).nextDraw
    if asksAfterBeginning s1 others then latePlanAsk s2 else s2
  else s1

/-- INTAKE_TAKE: R74; held off, or with an empty post list, the intake takes nothing
(log entry 3). -/
def execIntakeTake (p : PortId) (s : State) : Host.Outcome State Fault Refusal :=
  if isRunning s && !intakeHeldOff s && !(postList s p).isEmpty then .next (takeThenPlan p s)
  else .next s

end Sys2Proof.Machine
end

