-- ==== Sys2Proof/Machine/Disinfection.lean ====
section
/-! DEFINITION. The Disinfection Cycle: the zone check (R130), its evaluation at a period start
(R131, R134) and its adjustment at an accepted SETUP-EXIT (R133). -/

namespace Sys2Proof.Machine

/-- R130: the model state is FULL or SINGLE and every layer from F to 11 is at or above Tdis, both
from the cycle's copy. -/
def zoneCheck (s : State) : Bool :=
  s.model.state != .none &&
    (comfortLayers s.cycle.floor).all fun i => s.cycle.tDis ≤ s.model.layers[i]

/-- R131, stage 1: the hold count after the zone check; it is one byte and stops at 255 (R129). -/
def holdAfterZone (s : State) : Nat :=
  if zoneCheck s then min 255 (s.cycle.holdCount + 1) else 0

/-- R131, stage 2: the state of a cycle that records a success. -/
def cycleSuccess (c : DisinfectionCycle) : DisinfectionCycle :=
  { c with state := .counting, sinceSuccess := 0, sinceDue := 0, holdCount := 0 }

/-- R131, stage 3, for a cycle that is COUNTING. -/
def cycleCounted (c : DisinfectionCycle) : DisinfectionCycle :=
  let count := saturate (c.sinceSuccess + 1)
  if c.interval ≤ count then { c with state := .due, sinceSuccess := count, sinceDue := 0 }
  else { c with sinceSuccess := count }

/-- R131, stage 4: the since-due count of a DUE cycle has reached the deadline. -/
def deadlineReached (c : DisinfectionCycle) : Bool := c.deadline ≤ saturate (c.sinceDue + 1)

/-- R131, stage 4, for a cycle that was DUE when the period start arrived. -/
def cycleDueCounted (c : DisinfectionCycle) : DisinfectionCycle :=
  { c with sinceDue := if deadlineReached c then 0 else saturate (c.sinceDue + 1) }

/-- R131: the cycle's new state and counts, and whether a DISINFECT-FAILED is raised. -/
def cycleEvaluated (s : State) : DisinfectionCycle × Bool :=
  let c := { s.cycle with holdCount := holdAfterZone s }
  match s.cycle.state with
  | .off => (s.cycle, false)
  | .counting => if c.hold ≤ c.holdCount then (cycleSuccess c, false) else (cycleCounted c, false)
  | .due =>
    if c.hold ≤ c.holdCount then (cycleSuccess c, false)
    else (cycleDueCounted c, deadlineReached c)

/-- R131, R134: the cycle evaluates itself; DISINFECT-ACTIVE follows, and a failed deadline is
raised as an occurrence. -/
def evaluateCycle (s : State) : State :=
  let s1 := followConditions s (s.setCycle (cycleEvaluated s).1)
  if (cycleEvaluated s).2 then raiseOccurrence .disinfectFailed s1 else s1

/-- R129, R133: the cycle with a new copy of its settings, adjusted to the new interval. -/
def adjustedCycle (img : Image) (c : DisinfectionCycle) : DisinfectionCycle :=
  let copied := { c with interval := disinfectionInterval img, hold := disinfectionHold img,
                         deadline := disinfectionDeadline img, tDis := tDis img,
                         floor := comfortFloor img }
  if disinfectionInterval img = 0 then
    { copied with state := .off, sinceSuccess := 0, sinceDue := 0, holdCount := 0 }
  else if c.interval = 0 then
    { copied with state := .counting, sinceSuccess := 0, sinceDue := 0, holdCount := 0 }
  else copied

end Sys2Proof.Machine
end

