-- ==== Sys2Proof/Machine/Period.lean ====
section
/-! DEFINITION. The period start as the blocks take it (R82, R88, R89, R93, R95, R159, R160), without
the loss of the setup holder, which Machine/Leaving.lean adds. -/

namespace Sys2Proof.Machine

/-- R88, R89: the period number rises by one and wraps, or is set to 0 at the first period start;
the seconds remaining are set to the period length in force. -/
def advancePeriod (first : Bool) (s : State) : State :=
  s.setPlanner { s.planner with
    timerRunning := true
    period := if first then 0 else s.planner.period + 1
    secondsRemaining := s.planner.periodLength }

/-! ## Requests -/

/-- R79, R82: the age of every held request rises by one and stops at 65535. -/
def ageRequests (s : State) : State :=
  eachFrame s fun _ fr =>
    match fr.state with
    | .held age => { fr with state := .held (saturate (age + 1)) }
    | .free => fr
    | .taken => fr
    | .posted => fr
    | .reported => fr
    | .collected => fr

/-- R82: the age of a HELD frame has reached its span. -/
def spanReached (fr : Frame) : Bool :=
  match fr.state with
  | .held age => fr.request.span.toNat ≤ age
  | .free => false
  | .taken => false
  | .posted => false
  | .reported => false
  | .collected => false

/-- R82: a HEAT request with a span above 0, and every RESERVE and COMFORT request, ends when its
age has reached its span. -/
def expires (s : State) (i : FrameId) : Bool :=
  match kindOf s i with
  | some .heat => (frameOf s i).request.span != 0 && spanReached (frameOf s i)
  | some .reserve => spanReached (frameOf s i)
  | some .comfort => spanReached (frameOf s i)
  | some .standing => false
  | some .cancel => false
  | none => false

/-- R82: a HEAT request ends EXPIRED, a RESERVE or COMFORT request DONE. -/
def expiryOutcome (s : State) (i : FrameId) : FrameOutcome :=
  if kindOf s i = some .heat then .expired else .done

/-- R82: the expiries of a period start; a RUNNING source's grant ends first with cause
REQUEST-END. -/
def expireRequests (s : State) : State :=
  let s1 := (allFrames.filter (expires s)).foldl endGrantOf s
  endRequests (expiryOutcome s) s1 (expires s)

/-! ## Port liveness -/

/-- R159: the silence count of an ACTIVE port after a period start. -/
def silenceAfter (timeout : Nat) (p : Port) : Nat :=
  if p.active && 1 ≤ timeout then min 255 (p.silence + 1) else p.silence

/-- R159: the port becomes SILENT at this period start: also at the first one after a command where the
timeout is 1 (log entry 28). -/
def fallsSilent (s : State) (p : PortId) : Bool :=
  (portOf s p).active && 1 ≤ s.ports.timeout &&
    s.ports.timeout ≤ silenceAfter s.ports.timeout (portOf s p)

/-- R160: the owner of a slot becomes SILENT at this period start. -/
def ownerFallsSilent (s : State) (k : SlotId) : Bool :=
  match (recordOf s k).owner with
  | none => false
  | some p => fallsSilent s p

/-- R159, R160: the ports take a period start. A port that becomes SILENT ends the grants of its
RUNNING sources and raises PORT-SILENT; its requests stay held. -/
def countSilence (s : State) : State :=
  let s1 := endGrants .portSilent s ((runningSlots s).filter fun k => ownerFallsSilent s k)
  let s2 := eachPort s1 fun p port =>
    { port with active := port.active && !fallsSilent s p
                silence := silenceAfter s.ports.timeout port }
  if allPorts.any (fallsSilent s) then raiseOccurrence .portSilent s2 else s2

/-- The slots whose request expires and whose owner falls silent at one period start: the spec
leaves open which of the two ends the grant (R51, R161); here those the silence reaches first
(log entry 7). -/
def silencedFirst (s : State) : List SlotId :=
  (runningSlots s).filter fun k =>
    ownerFallsSilent s k &&
      match heldFor s k with
      | none => false
      | some i => expires s i && Config.silenceFirst s.openDraws k

/-! ## The planner -/

/-- R93: the snapshot takes the layers and the model state as the Layer Model holds them, and the
cycle state after the cycle's own evaluation. -/
def takeSnapshot (s : State) : State :=
  s.setPlanner { s.planner with
    snapshot := { layers := s.model.layers, model := s.model.state, cycle := s.cycle.state } }

/-- R92, R95, R107: the late-request mark is cleared; outside SETUP a full plan begins, and a plan
in flight is abandoned. -/
def planAtPeriodStart (s : State) : State :=
  if inSetup s then s.setPlanner { s.planner with lateMark := false } else beginFullPlan s

/-- A period start as every block takes it, in the order that R95 needs: the plan last. -/
def periodStartTaken (first : Bool) (s : State) : State :=
  let s1 := countSources (raiseOccurrence .periodStart (advancePeriod first s))
  let s2 := ageRequests s1
  let s3 := expireRequests (endGrants .portSilent s2 (silencedFirst s2))
  let s4 := countSilence (evaluateCycle s3)
  (planAtPeriodStart (takeSnapshot s4)).nextDraw

/-- The setup holder becomes SILENT at a period start (R160, R175). -/
def holderFallsSilent (s : State) : Bool :=
  match setupHolder s with
  | none => false
  | some p => fallsSilent s p

end Sys2Proof.Machine
end

