-- ==== Sys2Proof/Machine/Scanning.lean ====
section
/-! DEFINITION. The scan: its start (R5, R6, R118), the judging of a read (R1), and what a scan
completion does before any period start it causes (R7 to R13, R15, R17, R49, R119, R120). -/

namespace Sys2Proof.Machine

/-! ## The read -/

/-- The result of a read (R1). -/
inductive ReadOutcome where
  | goodReading (t : Int)
  | noAnswer
  | badCheck
  | outOfRange
  deriving DecidableEq, Repr

/-- R1: the sum, modulo 256, of the address byte and the three answer bytes equals 0xFF. -/
def checkCorrect (address low high check : Byte) : Bool := address + low + high + check == 0xFF

/-- R1: the result of a read whose third answer byte has been received. -/
def judgeRead (address low high check : Byte) : ReadOutcome :=
  let t := (wordOf low high).toInt
  if !checkCorrect address low high check then .badCheck
  else if -640 ≤ t ∧ t ≤ 2400 then .goodReading t
  else .outOfRange

/-- R1: the three kinds of read fault are treated alike and the kind is not kept. -/
def keptResult : ReadOutcome → ReadResult
  | .goodReading t => .good t
  | .noAnswer => .fault
  | .badCheck => .fault
  | .outOfRange => .fault

/-- The slot being read and the scan it belongs to. -/
def currentRead (s : State) : Option (ProbeId × Scan) :=
  match s.scanner.scan with
  | none => none
  | some scan =>
    match scan.toRead with
    | [] => none
    | n :: _ => some (n, scan)

/-- R1: the byte the scanner sends for the read in progress, the probe's line address. -/
def probeRequest (s : State) : Option Byte :=
  (currentRead s).map fun c => (s.scanner.probes[c.1]).address

/-- R187: PRB-C is driven low while the probe line is idle; it is idle while no read is under
way. -/
def probeLineIdle (s : State) : Bool := (currentRead s).isNone

/-- R6: the read's result is kept within the scan, and the next read begins. -/
def keepResult (scan : Scan) (r : ReadResult) : Scan :=
  match scan.toRead with
  | [] => scan
  | n :: rest => { scan with toRead := rest, results := scan.results ++ [(n, r)] }

/-! ## Scan start -/

/-- The configured slots of the probe table, in ascending slot order (R3, R6). -/
def configuredSlots (s : State) : List ProbeId :=
  (List.finRange 8).filter fun n => (s.scanner.probes[n]).layer.isSome

/-- R5, R6, R118: a scan starts, in place of any scan in flight: it takes the scan interval, hold
limit, inversion margin, Tlimit and hysteresis from the image as it stands, and the list of
configured slots from the probe table. -/
def beginScan (s : State) : State :=
  s.setScanner { s.scanner with
    interval := scanInterval s.store.image
    scan := some { toRead := configuredSlots s, results := [],
                   holdLimit := holdLimit s.store.image,
                   inversionMargin := inversionMargin s.store.image,
                   tLimit := tLimit s.store.image, hysteresis := hysteresis s.store.image } }

/-! ## The probe table at a completion -/

/-- R8, R9: one slot updated from the result of its read. -/
def updatedProbe (limit : Nat) (slot : ProbeSlot) (r : ReadResult) : ProbeSlot :=
  match slot.state, r with
  | .unused, _ => slot
  | .unread, .good t => { slot with state := .ok, holdCount := 0, lastValid := t }
  | .unread, .fault => { slot with state := .failed, holdCount := 0 }
  | .ok, .good t => { slot with state := .ok, holdCount := 0, lastValid := t }
  | .ok, .fault =>
    { slot with state := if limit < slot.holdCount + 1 then .failed else .holding
                holdCount := slot.holdCount + 1 }
  | .holding, .good t => { slot with state := .ok, holdCount := 0, lastValid := t }
  | .holding, .fault =>
    { slot with state := if limit < slot.holdCount + 1 then .failed else .holding
                holdCount := slot.holdCount + 1 }
  | .failed, .good t => { slot with state := .ok, holdCount := 0, lastValid := t }
  | .failed, .fault => slot

/-- R8: every slot the scan read is updated. -/
def updatedProbes (scan : Scan) (probes : Vector ProbeSlot 8) : Vector ProbeSlot 8 :=
  each probes fun n slot =>
    match scan.results.find? fun r => r.1 == n with
    | none => slot
    | some r => updatedProbe scan.holdLimit slot r.2

/-- R8: a valid probe is OK or HOLDING. -/
def isValid (p : ProbeSlot) : Bool := p.layer.isSome && (p.state == .ok || p.state == .holding)

/-- A slot put into a list behind those of lower free rank (log entry 10). -/
def insertByRank (rank : ProbeId → Nat) (n : ProbeId) : List ProbeId → List ProbeId
  | [] => [n]
  | m :: rest => if rank n < rank m then n :: m :: rest else m :: insertByRank rank n rest

/-- The valid probes of one layer. The SETUP-EXIT checks leave at most one (R4); where a page has
brought more, their order is free (log entry 10). -/
def atLayer (probes : Vector ProbeSlot 8) (rank : ProbeId → Nat) (i : LayerId) : List ProbeId :=
  match (List.finRange 8).filter fun n => isValid probes[n] && (probes[n]).layer == some i with
  | [] => []
  | [n] => [n]
  | n :: m :: rest => (n :: m :: rest).foldr (insertByRank rank) []

/-- R11, R13: the valid probes in ascending order of layer position, each as its layer and its last
valid reading. -/
def validProbes (probes : Vector ProbeSlot 8) (rank : ProbeId → Nat) : List (LayerId × Int) :=
  allLayers.flatMap fun i => (atLayer probes rank i).map fun n => (i, (probes[n]).lastValid)

/-- R10: the model state from the count of valid probes. -/
def modelStateFor (count : Nat) : ModelState :=
  if 2 ≤ count then .full else if count = 1 then .single else .none

/-! ## The layers -/

/-- R11: the value of a layer strictly between two valid probes; the division rounds toward
zero. -/
def interpolated (a b i : LayerId) (ta tb : Int) : Int :=
  ta + ((tb - ta) * ((i.val : Int) - a.val)).tdiv ((b.val : Int) - a.val)

/-- R11: the temperature of a layer, given the valid probe last passed below it and those from
there upward. -/
def layerFrom (i : LayerId) (below : LayerId × Int) : List (LayerId × Int) → Int
  | [] => below.2
  | above :: rest =>
    if i.val ≤ below.1.val then below.2
    else if i.val < above.1.val then interpolated below.1 above.1 i below.2 above.2
    else layerFrom i above rest

/-- R11, R12: the layers from the valid probes; with none valid they keep their values. -/
def formedLayers (old : Vector Int 12) (valid : List (LayerId × Int)) : Vector Int 12 :=
  match valid with
  | [] => old
  | lowest :: rest => Vector.ofFn fun i => layerFrom i lowest rest

/-- R13: some valid probe reads colder than the one next below it by more than the margin. -/
def invertedPair (margin : Nat) : List (LayerId × Int) → Bool
  | [] => false
  | [_] => false
  | lower :: upper :: rest =>
    decide ((margin : Int) < lower.2 - upper.2) || invertedPair margin (upper :: rest)

/-- R7, stages 2 to 5: the Layer Model after a completion. -/
def completedModel (old : LayerModel) (margin : Nat) (valid : List (LayerId × Int)) : LayerModel :=
  let state := modelStateFor valid.length
  { layers := formedLayers old.layers valid
    state := state
    scanCompleted := true
    inversion := state == .full && invertedPair margin valid }

/-- R7: the whole scan applied in one operation; the scan is then no longer in flight. -/
def applyScan (scan : Scan) (s : State) : State :=
  let probes := updatedProbes scan s.scanner.probes
  let valid := validProbes probes (Config.sharedLayerRank s.openDraws)
  (s.setScanner { s.scanner with probes := probes, scan := none }).setModel
    (completedModel s.model scan.inversionMargin valid)

/-! ## What the neighbours do -/

/-- R119: overtemperature judged on the completed layers. -/
def overtempAfter (scan : Scan) (s : State) : Bool :=
  if s.model.state = .none then s.safety.overtemp
  else if s.safety.overtemp then
    allLayers.any fun i => scan.tLimit - (scan.hysteresis : Int) ≤ s.model.layers[i]
  else allLayers.any fun i => scan.tLimit ≤ s.model.layers[i]

/-- R49: a RUNNING source whose coil-top layer is at least its effective target. -/
def targetReached (s : State) (k : SlotId) : Bool :=
  isGrantRunning s k && (grantOf s k).target ≤ s.model.layers[(recordOf s k).coilTop]

/-- R81: the HEAT request of one of the slots. -/
def isHeatOf (s : State) (slots : List SlotId) (i : FrameId) : Bool :=
  kindOf s i == some .heat &&
    match heldSlot s i with
    | none => false
    | some k => slots.contains k

/-- R49, R81: the grants of the slots end with cause TARGET, and their HEAT requests end DONE. -/
def endAtTarget (s : State) (slots : List SlotId) : State :=
  endRequests (fun _ => .done) (endGrants .target s slots) (isHeatOf s slots)

/-- R15, R17, R49, R119, R120: the Safety Monitor and the Source Table take the completed values. A
completion in NONE ends every grant. Where one that makes overtemperature active finds a source at
its target, either may be taken first (log entry 6). -/
def neighboursTake (scan : Scan) (s : State) : State :=
  if s.model.state = .none then revokeAll .modelNone s
  else
    let after := overtempAfter scan s
    let rises := after && !s.safety.overtemp
    let s1 := s.setSafety { s.safety with overtemp := after }
    let reached := allSlots.filter fun k =>
      targetReached s k && (!rises || Config.targetCheckFirst s.openDraws k)
    let s2 := endAtTarget s1 reached
    if rises then revokeAll .overtemp s2 else s2

/-- A scan completion, less the first period start it may cause (R7, R15): the alert conditions
follow the completed values. -/
def scanApplied (scan : Scan) (s : State) : State :=
  (followConditions s (neighboursTake scan (applyScan scan s))).nextDraw

end Sys2Proof.Machine
end

