-- ==== Sys2Proof/Machine/Leaving.lean ====
section
/-! DEFINITION. The end of setup (R90, R174 stages 2 to 5, R175), the period start with the loss of
the setup holder (R160), the scan completion with the first period start it causes (R16, R89), and
the meanings of PERIOD_START, SCAN_START, PROBE_READ and ANSWER_WINDOW_CLOSE. -/

namespace Sys2Proof.Machine

/-- R6: a scan in flight with nothing to read; its completion follows its start at once. -/
def emptyScan (s : State) : Option Scan :=
  match s.scanner.scan with
  | none => none
  | some scan => if scan.toRead.isEmpty then some scan else none

/-- R89: the first period start, if no scan has completed since the reset. -/
def firstPeriodStart (before s : State) : State :=
  if before.model.scanCompleted then s else periodStartTaken true s

/-- R90, R174: setup ends: the scan in flight is discarded and a new one starts, the holder is
cleared and the snapshot discarded, the planner leaves SUSPENDED, and SETUP-CHANGE is raised. -/
def setupLeft (s : State) : State :=
  let s1 := beginScan s
  let s2 := s1.setStore { s1.store with setup := none }
  raiseOccurrence .setupChange (planEnded s2)

/-- R90: with the timer running, a period start takes place at once as setup ends. -/
def periodStartOfR90 (s : State) : State :=
  if s.planner.timerRunning then periodStartTaken false s else s

/-- R90, R174, R175: the end of setup. Where the new scan has no slot to read, its completion and
the period start of R90 fall together; the order is free (R16), and it tells only if the model is
not NONE already. With the timer not running that completion is the first since the reset
(log entry 9). -/
def endSetup (s : State) : State :=
  let s1 := setupLeft s
  match emptyScan s1 with
  | none => periodStartOfR90 s1
  | some scan =>
    if s1.planner.timerRunning && s1.model.state != .none && Config.emptyScanFirst s1.openDraws then
      periodStartOfR90 (scanApplied scan s1)
    else
      let s2 := periodStartOfR90 s1
      firstPeriodStart s2 (scanApplied scan s2)

/-- R175: the entry snapshot is written back over the image, the masks it restores are settled, and
setup ends. No block takes a copy. -/
def endSetupRestoring (s : State) : State :=
  match s.store.setup with
  | none => s
  | some setup =>
    let s1 := s.setStore { s.store with image := setup.entrySnapshot }
    endSetup (settleMasks s.store.image s1)

/-- A period start, with the loss of a setup holder that becomes SILENT at it: setup then ends, and
the period start of R90 follows at once (R160, R175; log entry 13). -/
def periodStart (first : Bool) (s : State) : State :=
  let s1 := periodStartTaken first s
  if holderFallsSilent s then endSetupRestoring s1 else s1

/-- R7, R16, R89: a scan completion; the first since the reset causes the first period start. -/
def scanCompleted (scan : Scan) (s : State) : State :=
  let s1 := scanApplied scan s
  if s.model.scanCompleted then s1 else periodStart true s1

/-- A scan just begun is completed at once if it has nothing to read (R6). -/
def completeIfEmpty (s : State) : State :=
  match emptyScan s with
  | none => s
  | some scan => scanCompleted scan s

/-- R6: the read in progress ends with a result: the next read begins, or the scan completes. -/
def readEnded (s : State) (scan : Scan) (r : ReadResult) : State :=
  let scan1 := keepResult scan r
  if scan1.toRead.isEmpty then scanCompleted scan1 s
  else s.setScanner { s.scanner with scan := some scan1 }

/-- PERIOD_START: R88; it takes place only when a second passes with the seconds remaining at 1
(log entry 3). -/
def execPeriodStart (s : State) : Host.Outcome State Fault Refusal :=
  if isRunning s && s.planner.timerRunning && s.planner.secondsRemaining == 1 then
    .next (periodStart false s)
  else .next s

/-- SCAN_START: R5; before the start-up load completes no scan runs (R21), and each scan completes
before the next start falls due (R6; log entry 3). -/
def execScanStart (s : State) : Host.Outcome State Fault Refusal :=
  if isRunning s && s.scanner.scan.isNone then .next (completeIfEmpty (beginScan s)) else .next s

/-- PROBE_READ: R1; bytes outside an answer window are disregarded (R2). -/
def execProbeRead (low high check : Byte) (s : State) : Host.Outcome State Fault Refusal :=
  match currentRead s with
  | none => .next s
  | some (n, scan) =>
    let address := (s.scanner.probes[n]).address
    .next (readEnded s scan (keptResult (judgeRead address low high check)))

/-- ANSWER_WINDOW_CLOSE: R1, no answer; with no read in progress no window is open (R2). -/
def execAnswerWindowClose (s : State) : Host.Outcome State Fault Refusal :=
  match currentRead s with
  | none => .next s
  | some (_, scan) => .next (readEnded s scan (keptResult .noAnswer))

end Sys2Proof.Machine
end

