-- ==== Sys2Proof/Machine/Protection.lean ====
section
/-! DEFINITION. The input lines of the Safety Monitor (R122 to R127) and the meanings of
INPUT_PIN_CHANGE and SETTLE_EXPIRY. -/

namespace Sys2Proof.Machine

/-- R126, R127: what a line that has become active does at once: X1 ends every grant, X0 those of
the PAID sources that obey it. -/
def lineBecameActive (l : Line) (s : State) : State :=
  match l with
  | .x0 => revokePaidBlock s
  | .x1 => revokeAll .serviceStop s

/-- R123, R125: the effects of a change of a line's active state, from the state `before` the
change to `s` after it. -/
def lineEffects (before : State) (l : Line) (s : State) : State :=
  if !lineActive before l && lineActive s l then lineBecameActive l s else s

/-- R123: a level becomes the settled level and no settle is in flight; revocation and condition
follow at that moment. -/
def takeLevel (l : Line) (level : Level) (s : State) : State :=
  let s1 := setLine s l { lineOf s l with settled := level, settling := none }
  followConditions s (lineEffects s l s1)

/-- R123: a pin that has changed to a level, the line being evaluated. -/
def pinChanged (l : Line) (level : Level) (s : State) : State :=
  let line := { lineOf s l with pin := level }
  match line.settling with
  | some _ =>
    if level = line.settled then setLine s l { line with settling := none } else setLine s l line
  | none =>
    if level = line.settled then setLine s l line
    else if line.settleTime = 0 then takeLevel l level (setLine s l line)
    else setLine s l { line with settling := some { target := level, time := line.settleTime } }

/-- INPUT_PIN_CHANGE: R123. A pin that stays at its level has not changed; until the start-up load
completes neither line is evaluated (R124) and the pin alone changes. -/
def execInputPinChange (l : Line) (level : Level) (s : State) : Host.Outcome State Fault Refusal :=
  if level = (lineOf s l).pin then .next s
  else if isRunning s then .next (pinChanged l level s)
  else .next (setLine s l { lineOf s l with pin := level })

/-- SETTLE_EXPIRY: R123; with no settle in flight, nothing (log entry 3). -/
def execSettleExpiry (l : Line) (s : State) : Host.Outcome State Fault Refusal :=
  match (lineOf s l).settling with
  | none => .next s
  | some settle => .next (takeLevel l settle.target s)

end Sys2Proof.Machine
end

