-- ==== Sys2Proof/Machine/Resets.lean ====
section
/-! DEFINITION. The resets (R179 to R181, R187), the start-up load (R178), and the meanings of
POWER_ON_RESET, RESET_PIN_RESET, SUPPLY_LOW_RESET, RESTART_RESET, RESET_PIN_RELEASE,
SUPPLY_RECOVERY and START_UP_LOAD. -/

namespace Sys2Proof.Machine

/-! ## The start of a reset -/

/-- R177: a reset during a store leaves a page that is bad; any other leaves the page as it is. -/
def pageAfterReset (st : SettingsStore) : Page := if st.storing.isSome then .torn else st.page

/-- R155: a reset ends the transaction in flight: what was received is dropped, and the rest of the
transaction, up to the rise of its select, is disregarded. The select is driven from outside. -/
def wireAfterReset (w : Wire) : Wire :=
  { idleWire with select := w.select, disregarded := w.select == .low }

/-- R181: every kind of reset acts alike on every block: every operation in flight is discarded and
each block returns to its reset values. What the start-up load copies holds its factory value until
then (log entry 2). The page, the input pins, the selects, the queue of commands and the draw counter
are not reset. -/
def resetBlocks (part : Part) (s : State) : State :=
  { State.reset with
    part := part
    safety :=
      { State.reset.safety with
        x0 := { State.reset.safety.x0 with pin := s.safety.x0.pin }
        x1 := { State.reset.safety.x1 with pin := s.safety.x1.pin } }
    wires := each s.wires fun _ w => wireAfterReset w
    store := { State.reset.store with page := pageAfterReset s.store }
    openDraws := s.openDraws
    pending := s.pending }

/-- The part at the start of a reset: it no longer runs, and every accepted RESTART is gone. -/
def resetPart (cause : ResetCause) (rstnHeld supplyHeld : Bool) : Part where
  phase := .loading
  rstnHeld := rstnHeld
  supplyHeld := supplyHeld
  cause := cause
  restartArmed := noRestart

/-- POWER_ON_RESET: R179; POWER-ON set, the other three cleared. The supply is there; RSTN is as it
was (log entry 15). -/
def execPowerOnReset (s : State) : Host.Outcome State Fault Refusal :=
  let cause := { powerOn := true, resetPin := false, supplyLow := false, restart := false }
  .next (resetBlocks (resetPart cause s.part.rstnHeld false) s)

/-- RESET_PIN_RESET: R179, R187; RESET-PIN set, the others kept, and the part stays in reset while
RSTN is low. A pin that is held low already starts no second reset (log entry 3). -/
def execResetPinReset (s : State) : Host.Outcome State Fault Refusal :=
  if s.part.rstnHeld then .next s
  else
    .next (resetBlocks
      (resetPart { s.part.cause with resetPin := true } true s.part.supplyHeld) s)

/-- SUPPLY_LOW_RESET: R179, R187; "while the part runs": not while it is held in reset
(log entry 15). SUPPLY-LOW set, the others kept. -/
def execSupplyLowReset (s : State) : Host.Outcome State Fault Refusal :=
  if s.part.rstnHeld || s.part.supplyHeld then .next s
  else .next (resetBlocks (resetPart { s.part.cause with supplyLow := true } false true) s)

/-- RESTART_RESET: R180; carried out at the rise of select after an accepted RESTART. With none
accepted the rise of select resets nothing. -/
def execRestartReset (s : State) : Host.Outcome State Fault Refusal :=
  if allPorts.any (restartArmedAt s) then
    .next (resetBlocks (resetPart { s.part.cause with restart := true } false false) s)
  else .next s

/-- RESET_PIN_RELEASE: R187; RSTN no longer holds the part in reset. -/
def execResetPinRelease (s : State) : Host.Outcome State Fault Refusal :=
  .next (s.setPart { s.part with rstnHeld := false })

/-- SUPPLY_RECOVERY: R187; the supply no longer holds the part in reset. -/
def execSupplyRecovery (s : State) : Host.Outcome State Fault Refusal :=
  .next (s.setPart { s.part with supplyHeld := false })

/-! ## The start-up load -/

/-- R178: the page, if it is good. -/
def goodPage : Page → Option Image
  | .holds bytes => if pageGood bytes then some bytes else none
  | .torn => none

/-- R178: the image the load brings in. -/
def imageToLoad (page : Page) : Image :=
  match goodPage page with
  | none => factoryImage
  | some bytes => loadedImage bytes

/-- R178: each block takes its copies from the loaded image (R4, R21, R40, R58, R61, R86, R87,
R116, R122, R129, R137, R139, R158). -/
def copiesLoaded (img : Image) (s : State) : State :=
  { s with
    scanner := freshScanner img
    table := freshTable img
    pool := freshPool img
    planner := freshPlanner img
    safety :=
      { s.safety with
        x0 := freshLine img .x0 s.safety.x0.pin s.safety.x0.settled
        x1 := freshLine img .x1 s.safety.x1.pin s.safety.x1.settled }
    cycle := freshCycle img
    alerts := freshAlerts img
    ports := freshPorts img
    store := { s.store with image := img } }

/-- R124: each pin is read once and taken as the settled level at once; the part then runs. -/
def pinsRead (s : State) : State :=
  let settledAtPin (x : InputLine) : InputLine := { x with settled := x.pin, settling := none }
  (s.setSafety { s.safety with x0 := settledAtPin s.safety.x0
                               x1 := settledAtPin s.safety.x1 }).setPart
    { s.part with phase := .running }

/-- R151, R178: after the factory defaults SETTINGS-LOST is raised under the loaded masks. -/
def announceLoss (page : Page) (s : State) : State :=
  if (goodPage page).isNone then raiseOccurrence .settingsLost s else s

/-- R178: the start-up load completes: copies, masks and pins, the conditions they bring judged
under the loaded masks and modes (R151), then the first scan (R5). -/
def loadCompleted (s : State) : State :=
  let s1 := copiesLoaded (imageToLoad s.store.page) s
  let s2 := announceLoss s.store.page (followConditions s1 (pinsRead s1))
  completeIfEmpty (beginScan s2)

/-- START_UP_LOAD: R178; it follows a reset, once nothing holds the part in reset (R187;
log entry 3). -/
def execStartUpLoad (s : State) : Host.Outcome State Fault Refusal :=
  if isRunning s || s.part.rstnHeld || s.part.supplyHeld then .next s
  else .next (loadCompleted s)

end Sys2Proof.Machine
end

