-- ==== Sys2Proof/Machine/Settings.lean ====
section
/-! DEFINITION. The selector and the image commands (R167 to R170), the store (R177), and the
meanings of SELECT, SET_READ, SET_WRITE, STORE and STORE_COMPLETION. -/

namespace Sys2Proof.Machine

/-- A port's selector moved (R167). -/
def setSelector (p : PortId) (index : Nat) (s : State) : State :=
  modPort s p fun port => { port with selector := index }

/-- R167: an index of 256 or more is refused. -/
def selectAnswer (p : PortId) (index : Word) (s : State) : Answer :=
  if index.toNat < 256 then accepted [] (setSelector p index.toNat s)
  else refused .badArgument s

/-- SELECT: R167. -/
def execSelect (p : PortId) (index : Word) (s : State) : Host.Outcome State Fault Refusal :=
  serve p (selectAnswer p index) s

/-- R167: the bytes from the selector onward; the selector rises by their number. -/
def setReadAnswer (p : PortId) (n : Byte) (s : State) : Answer :=
  let start := (portOf s p).selector
  if selectorFits start n.toNat then
    accepted (imageBytes s.store.image start n.toNat) (setSelector p (start + n.toNat) s)
  else refused .badArgument s

/-- SET-READ: R167. -/
def execSetRead (p : PortId) (n : Byte) (s : State) : Host.Outcome State Fault Refusal :=
  serve p (setReadAnswer p n) s

/-- R42, R170: the slots whose block-obey a write reaches and leaves at yes, while X0 is active and
they are PAID. -/
def blockedByWrite (s : State) (start count : Nat) : List SlotId :=
  (runningSlots s).filter fun k =>
    let obeyOffset := recordOffset k + 9
    decide (start ≤ obeyOffset) && decide (obeyOffset < start + count) && heldBackByX0 s k

/-- R168, R170: the write is stored; masks it changes are settled at their ports, and a block-obey
written to yes while X0 is active revokes its source. -/
def imageWritten (start : Nat) (data : List Byte) (s : State) : State :=
  let s1 := s.setStore { s.store with image := writtenImage s.store.image start data }
  let s2 := settleMasks s.store.image s1
  endGrants .paidBlock s2 (blockedByWrite s2 start data.length)

/-- R168, R169: the range test, the permission of each field reached, then the write. -/
def setWriteAnswer (p : PortId) (data : List Byte) (s : State) : Answer :=
  let start := (portOf s p).selector
  if selectorFits start data.length then
    match writeRefusal s p start data.length with
    | some status => refused status s
    | none => accepted [] (setSelector p (start + data.length) (imageWritten start data s))
  else refused .badArgument s

/-- SET-WRITE: R168. -/
def execSetWrite (p : PortId) (data : List Byte) (s : State) : Host.Outcome State Fault Refusal :=
  serve p (setWriteAnswer p data) s

/-- R177: WRONG-STATE in SETUP, BUSY while a store is in flight; else the copy with its check word
begins to be written. -/
def storeAnswer (s : State) : Answer :=
  if inSetup s then refused .wrongState s
  else if s.store.storing.isSome then refused .busy s
  else accepted [] (s.setStore { s.store with storing := some (withCheckWord s.store.image) })

/-- STORE: R177. -/
def execStore (p : PortId) (s : State) : Host.Outcome State Fault Refusal := serve p storeAnswer s

/-- R177: the page is left as the write left it, and read back: DONE when every byte matches the
copy, else FAILED. -/
def storeCompleted (copy readBack : Image) (s : State) : State :=
  let matched := readBack == copy
  let s1 := s.setStore { s.store with
    page := .holds readBack, storing := none,
    lastStore := if matched then .done else .failed }
  raiseOccurrence (if matched then .storeDone else .storeFail) s1

/-- STORE_COMPLETION: R177; with no store in flight, nothing (log entry 3). -/
def execStoreCompletion (readBack : Image) (s : State) : Host.Outcome State Fault Refusal :=
  match s.store.storing with
  | none => .next s
  | some copy => .next (storeCompleted copy readBack s)

end Sys2Proof.Machine
end

