-- ==== Sys2Proof/Machine/Setup.lean ====
section
/-! DEFINITION. Setup (R171 to R175), RESTART (R180) and PORT-RESET (R84, R85, R149, R165): the
meanings of SETUP_ENTER, SETUP_EXIT, SETUP_ABANDON, RESTART and PORT_RESET. -/

namespace Sys2Proof.Machine

/-! ## Entering -/

/-- R171: the port becomes holder, the snapshot is taken, every grant ends, the planner is
SUSPENDED with its plan abandoned and the mark cleared, and SETUP-CHANGE is raised. -/
def setupEntered (p : PortId) (s : State) : State :=
  let s1 := s.setStore { s.store with setup := some { holder := p, entrySnapshot := s.store.image } }
  let s2 := revokeAll .setupEnter s1
  let s3 := s2.setPlanner { s2.planner with state := .suspended, lateMark := false }
  raiseOccurrence .setupChange s3

/-- R171: WRONG-STATE in SETUP, then BUSY during a store. -/
def setupEnterAnswer (p : PortId) (s : State) : Answer :=
  if inSetup s then refused .wrongState s
  else if s.store.storing.isSome then refused .busy s
  else accepted [] (setupEntered p s)

/-- SETUP-ENTER: R171. -/
def execSetupEnter (p : PortId) (s : State) : Host.Outcome State Fault Refusal :=
  serve p (setupEnterAnswer p) s

/-! ## The exit checks -/

/-- Check 1 of R173: Tcold < Tuse < Tdis ≤ Tmax < Tlimit. -/
def checkTemperatures (img : Image) : Bool :=
  tCold img < tUse img && tUse img < tDis img && tDis img ≤ tMax img && tMax img < tLimit img

/-- Check 2: the hysteresis is below Tlimit − Tmax. -/
def checkHysteresis (img : Image) : Bool := (hysteresis img : Int) < tLimit img - tMax img

/-- Check 3: no two configured probe slots share a layer position. -/
def checkProbeLayers (img : Image) : Bool :=
  (List.finRange 8).all fun n =>
    (List.finRange 8).all fun m =>
      n == m || (probeLayer img n).isNone || probeLayer img n != probeLayer img m

/-- Check 4: in every slot whose owner in the image is a port, coil bottom ≤ coil top and minimum
power ≤ rated power. -/
def checkRecords (img : Image) : Bool :=
  allSlots.all fun k =>
    let r := copiedRecord img k
    r.owner.isNone || (decide (r.coilBottom ≤ r.coilTop) && decide (r.minPower ≤ r.ratedPower))

/-- Check 5: the four shares sum to 48 or less. -/
def checkShareSum (img : Image) : Bool := (allPorts.map (share img)).sum ≤ 48

/-- Every frame of every port is FREE, by the shares in force (R173). -/
def allFramesFree (s : State) : Bool :=
  allFrames.all fun i => (ownerOf s i).isNone || (frameOf s i).state == .free

/-- Check 6: the four shares equal those of the entry snapshot, or every frame is FREE. -/
def checkShareChange (s : State) (setup : Setup) : Bool :=
  copiedShares s.store.image == copiedShares setup.entrySnapshot || allFramesFree s

/-- Check 7: the late-start threshold ≤ the period length. -/
def checkThreshold (img : Image) : Bool := lateThreshold img ≤ periodLength img

/-- R173: the number of the first check that fails, or none. -/
def failingCheck (s : State) (setup : Setup) : Option Nat :=
  let img := s.store.image
  if !checkTemperatures img then some 1
  else if !checkHysteresis img then some 2
  else if !checkProbeLayers img then some 3
  else if !checkRecords img then some 4
  else if !checkShareSum img then some 5
  else if !checkShareChange s setup then some 6
  else if !checkThreshold img then some 7
  else none

/-! ## The copies of an accepted exit -/

/-- R4: a slot whose address and layer position are unchanged keeps its state; any other is set up
afresh. -/
def exitProbe (img : Image) (n : ProbeId) (slot : ProbeSlot) : ProbeSlot :=
  if slot.address = probeAddress img n ∧ slot.layer = probeLayer img n then slot
  else freshProbe img n

/-- R41: the slot is taken as a new source: owner, class or coil changed, and the new owner is a
port. -/
def takenAsNew (old new : SourceRecord) : Bool :=
  new.owner.isSome && (old.owner != new.owner || old.sourceClass != new.sourceClass ||
    old.coilBottom != new.coilBottom || old.coilTop != new.coilTop)

/-- R41: the slot's owner changed to NONE. -/
def madeUnused (old new : SourceRecord) : Bool := new.owner.isNone && old.owner.isSome

/-- R41: a slot loses its held request. -/
def losesRequest (s : State) (k : SlotId) : Bool :=
  let new := copiedRecord s.store.image k
  takenAsNew (recordOf s k) new || madeUnused (recordOf s k) new

/-- R41: the grant record of a slot at an accepted exit; the turn rank is kept. -/
def exitGrant (s : State) (k : SlotId) (g : GrantRecord) : GrantRecord :=
  let new := copiedRecord s.store.image k
  if takenAsNew (recordOf s k) new then clearedGrant .idle g.rank
  else if madeUnused (recordOf s k) new then clearedGrant .unused g.rank
  else g

/-- R83: a held HEAT or STANDING request of a slot that loses its request. -/
def isWithdrawn (s : State) (i : FrameId) : Bool :=
  match heldSlot s i with
  | none => false
  | some k => losesRequest s k

/-- R41, R83: the source records are compared and copied, and the requests of renewed and unused
slots end WITHDRAWN. -/
def exitSources (s : State) : State :=
  let s1 := s.setTable { records := Vector.ofFn (copiedRecord s.store.image)
                         grants := each s.table.grants (exitGrant s) }
  endRequests (fun _ => .withdrawn) s1 (isWithdrawn s)

/-- R61, R63: the shares are copied; if any changed, the free lists of all four ports are rebuilt
under the new partition. -/
def exitShares (s : State) : State :=
  let new := copiedShares s.store.image
  if new = s.pool.shares then s
  else s.setPool { s.pool with shares := new, freeLists := Vector.ofFn (portFrames new) }

/-- R122, R125: a line takes its new polarity and settle; a settle in flight keeps its time. -/
def exitLine (img : Image) (l : Line) (x : InputLine) : InputLine :=
  { x with activeLevel := linePolarity img l, settleTime := lineSettle img l }

/-- R125: both lines take their copies, and a line whose active state changes has its effects. -/
def exitLines (s : State) : State :=
  let img := s.store.image
  let s1 := s.setSafety { s.safety with x0 := exitLine img .x0 s.safety.x0
                                        x1 := exitLine img .x1 s.safety.x1 }
  lineEffects s .x1 (lineEffects s .x0 s1)

/-- R161: a port's silence count at an accepted exit. A timeout changed from 0 to a positive value
starts every count from 0; otherwise the count is kept, also at a change to 0, where R159 says that
every count "stays 0" (log entry 25). -/
def exitSilence (old new count : Nat) : Nat := if old = 0 ∧ 1 ≤ new then 0 else count

/-- R158, R161: the ports take their copy of the silence timeout. -/
def exitTimeout (img : Image) (x : PartnerPorts) : PartnerPorts where
  ports := each x.ports fun _ port =>
    { port with silence := exitSilence x.timeout (silenceTimeout img) port.silence }
  timeout := silenceTimeout img

/-- R174, stage 1, less the trigger modes: every block that works from a copy takes it. -/
def exitCopies (s : State) : State :=
  let img := s.store.image
  let s1 := s.setScanner { s.scanner with probes := each s.scanner.probes (exitProbe img) }
  let s2 := exitShares (exitSources s1)
  let s3 := s2.setPlanner { s2.planner with periodLength := periodLength img
                                            lateThreshold := lateThreshold img }
  let s4 := exitLines s3
  let s5 := s4.setCycle (adjustedCycle img s4.cycle)
  s5.setPorts (exitTimeout img s5.ports)

/-- R147, R174: the exit's changes; the conditions they alter are judged under the new modes. Then
setup ends. -/
def setupExited (s : State) : State :=
  let s1 := changeModes (copiedModes s.store.image) s
  endSetup (followConditions s1 (exitCopies s1))

/-! ## Leaving -/

/-- R173, R174: WRONG-STATE outside SETUP, NOT-HOLDER from another port, INVALID with the first
failing check; else the exit. -/
def setupExitAnswer (p : PortId) (s : State) : Answer :=
  match s.store.setup with
  | none => refused .wrongState s
  | some setup =>
    if setup.holder ≠ p then refused .notHolder s
    else
      match failingCheck s setup with
      | some n => (⟨.invalid, [byteOf n]⟩, s)
      | none => accepted [0x00] (setupExited s)

/-- SETUP-EXIT: R173, R174. -/
def execSetupExit (p : PortId) (s : State) : Host.Outcome State Fault Refusal :=
  serve p (setupExitAnswer p) s

/-- R175: checked as SETUP-EXIT is, and accepted without its checks. -/
def setupAbandonAnswer (p : PortId) (s : State) : Answer :=
  match s.store.setup with
  | none => refused .wrongState s
  | some setup =>
    if setup.holder ≠ p then refused .notHolder s else accepted [] (endSetupRestoring s)

/-- SETUP-ABANDON: R175. -/
def execSetupAbandon (p : PortId) (s : State) : Host.Outcome State Fault Refusal :=
  serve p (setupAbandonAnswer p) s

/-- R180: WRONG-STATE outside SETUP, NOT-HOLDER from another port; else the reset is armed for the
rise of the port's select. A RESTART accepted from an earlier holder stays armed. -/
def restartAnswer (p : PortId) (s : State) : Answer :=
  match s.store.setup with
  | none => refused .wrongState s
  | some setup =>
    if setup.holder ≠ p then refused .notHolder s
    else accepted [] (s.setPart { s.part with restartArmed := s.part.restartArmed.set p true })

/-- RESTART: R180. -/
def execRestart (p : PortId) (s : State) : Host.Outcome State Fault Refusal :=
  serve p (restartAnswer p) s

/-! ## PORT-RESET -/

/-- R84, step 1: the source of a discarded request. No request is held for it any more, so a
RUNNING one goes to RESTING or IDLE and no cause is recorded (R47, step 2); a WAITING one goes to
IDLE. -/
def sourceDiscarded (s : State) (k : SlotId) : State :=
  releaseSource (endGrant .requestEnd s k) k

/-- R84: the port's held requests leave their sets, every frame of it becomes FREE with its bytes as
they were, the grants of the discarded requests end, its lists are emptied and its free list is
rebuilt. -/
def resetFrames (p : PortId) (s : State) : State :=
  let mine := portFrames s.pool.shares p
  let s1 := mine.foldl (fun t i => setFrameState t i .free) s
  let s2 := (mine.filterMap (heldSlot s)).foldl sourceDiscarded s1
  setFreeList (setReplyQueue (setPostList s2 p []) p []) p mine

/-- R165: BUSY while a plan is in flight; else the four blocks act on behalf of the port. -/
def portResetAnswer (p : PortId) (s : State) : Answer :=
  if planInFlight s then refused .busy s
  else
    accepted [] (modPort (emptyAlerts p (resetFrames p s)) p fun port =>
      { port with selector := 0 })

/-- PORT-RESET: R165. -/
def execPortReset (p : PortId) (s : State) : Host.Outcome State Fault Refusal :=
  serve p (portResetAnswer p) s

end Sys2Proof.Machine
end

