-- ==== Sys2Proof/Machine/Dispatch.lean ====
section
/-! DEFINITION. The dispatch of the commands: one arm per constructor of Instr, each one direct call
of its meaning. -/

namespace Sys2Proof.Machine

-- The effect of a command on everything but the queue.
def exec (i : Instr) (s : State) : Host.Outcome State Fault Refusal :=
  match i with
    | .powerOnReset => Sys2Proof.Machine.execPowerOnReset s
    | .resetPinReset => Sys2Proof.Machine.execResetPinReset s
    | .supplyLowReset => Sys2Proof.Machine.execSupplyLowReset s
    | .restartReset => Sys2Proof.Machine.execRestartReset s
    | .startUpLoad => Sys2Proof.Machine.execStartUpLoad s
    | .scanStart => Sys2Proof.Machine.execScanStart s
    | .probeRead low high check => Sys2Proof.Machine.execProbeRead low high check s
    | .answerWindowClose => Sys2Proof.Machine.execAnswerWindowClose s
    | .periodStart => Sys2Proof.Machine.execPeriodStart s
    | .planCompletion => Sys2Proof.Machine.execPlanCompletion s
    | .latePlanCompletion => Sys2Proof.Machine.execLatePlanCompletion s
    | .intakeTake port => Sys2Proof.Machine.execIntakeTake port s
    | .inputPinChange line level => Sys2Proof.Machine.execInputPinChange line level s
    | .settleExpiry line => Sys2Proof.Machine.execSettleExpiry line s
    | .storeCompletion readBack => Sys2Proof.Machine.execStoreCompletion readBack s
    | .transactionDiscarded port => Sys2Proof.Machine.execTransactionDiscarded port s
    | .badCommand port code => Sys2Proof.Machine.execBadCommand port code s
    | .ident port => Sys2Proof.Machine.execIdent port s
    | .status port => Sys2Proof.Machine.execStatus port s
    | .take port => Sys2Proof.Machine.execTake port s
    | .fill port index offset data => Sys2Proof.Machine.execFill port index offset data s
    | .frameRead port index => Sys2Proof.Machine.execFrameRead port index s
    | .post port index => Sys2Proof.Machine.execPost port index s
    | .giveBack port index => Sys2Proof.Machine.execGiveBack port index s
    | .replyTake port => Sys2Proof.Machine.execReplyTake port s
    | .release port index => Sys2Proof.Machine.execRelease port index s
    | .alertTake port => Sys2Proof.Machine.execAlertTake port s
    | .alertDone port kind => Sys2Proof.Machine.execAlertDone port kind s
    | .select port index => Sys2Proof.Machine.execSelect port index s
    | .setRead port n => Sys2Proof.Machine.execSetRead port n s
    | .setWrite port data => Sys2Proof.Machine.execSetWrite port data s
    | .setupEnter port => Sys2Proof.Machine.execSetupEnter port s
    | .setupExit port => Sys2Proof.Machine.execSetupExit port s
    | .setupAbandon port => Sys2Proof.Machine.execSetupAbandon port s
    | .store port => Sys2Proof.Machine.execStore port s
    | .restart port => Sys2Proof.Machine.execRestart port s
    | .portReset port => Sys2Proof.Machine.execPortReset port s
    | .modelRead port => Sys2Proof.Machine.execModelRead port s
    | .sourceRead port slot => Sys2Proof.Machine.execSourceRead port slot s
    | .secondsRemainingTick => Sys2Proof.Machine.execSecondsRemainingTick s
    | .resetPinRelease => Sys2Proof.Machine.execResetPinRelease s
    | .supplyRecovery => Sys2Proof.Machine.execSupplyRecovery s

end Sys2Proof.Machine
end

