-- ==== Sys2Proof/Machine/Step.lean ====
section
/-! DEFINITION. One step of the block: the command at the front of the queue takes effect; an empty
queue idles. -/

namespace Sys2Proof.Machine

/-- The state with its queue replaced. -/
def State.setPending (s : State) (q : List Instr) : State := { s with pending := q }

/-- One step. The front command runs on the state with the queue's rest; with no command waiting
the block idles (log entry 4). -/
def step (s : State) : Host.Outcome State Fault Refusal :=
  match s.pending with
  | [] => .next s
  | c :: rest => exec c (s.setPending rest)

/-- The command that a word spells by the table's bits, put at the front of the queue. No row of the
table gives bits, so no word spells one, and commands come from outside (log entry 16). -/
def State.withFetchWord (s : State) (nbits w : Nat) : State :=
  match decodeTableWord nbits w with
  | none => s
  | some c => s.setPending (c :: s.pending)

end Sys2Proof.Machine
end

