-- ==== Sys2Proof/Machine/Pins.lean ====
section
/-! DEFINITION. The pins (R152 to R155, R187): the edges of a port's select and clock and the commands
they bring into the queue, and what the part drives on its output pins. The edges are no rows of the
table: a row stands for the moment at which an edge brings its event about (log entry 17). -/

namespace Sys2Proof.Machine

/-! ## Select and clock -/

/-- A command or event that an edge brings about, put at the tail of the queue. -/
def queued (c : Instr) (s : State) : State := { s with pending := s.pending ++ [c] }

/-- R152: a transaction begins at a falling edge of select; R155: one that begins before the start-up
load has completed is disregarded in full. Nothing of an earlier response is sent in it (R154). -/
def selectFalls (p : PortId) (s : State) : State :=
  match (wireOf s p).select with
  | .low => s
  | .high =>
    modPort (modWire s p fun _ => { idleWire with select := .low, disregarded := !isRunning s }) p
      fun port => { port with response := none }

/-- R152: the bits of a byte, the most significant first. -/
def byteOfBits (bits : List Bool) : Byte :=
  BitVec.ofNat 8 (bits.foldl (fun v b => 2 * v + b.toNat) 0)

/-- R152, R153: a byte has been received. The last argument byte brings the command about; the turn
byte and those after it are not read, nor is any byte while the port does not decode (R155). -/
def byteReceived (p : PortId) (b : Byte) (s : State) : State :=
  if decodes s p then
    let received := (wireOf s p).received ++ [b]
    match decodeTransaction p (wireOf s p).received with
    | .complete _ _ => s
    | .empty | .incomplete =>
      let s1 := modWire s p fun w => { w with received := received }
      match decodeTransaction p received with
      | .complete c _ => queued c s1
      | .empty | .incomplete => s1
  else s

/-- R152, mode 0: on a rising edge of the clock the port samples its data in line. With select high no
transaction is in flight. -/
def clockRises (p : PortId) (dataIn : Bool) (s : State) : State :=
  let bits := (wireOf s p).bits ++ [dataIn]
  match (wireOf s p).select with
  | .high => s
  | .low =>
    if bits.length < 8 then modWire s p fun w => { w with bits := bits }
    else byteReceived p (byteOfBits bits) (modWire s p fun w => { w with bits := [] })

/-- R152, mode 0: on a falling edge of the clock the port changes its data out line. -/
def clockFalls (p : PortId) (s : State) : State :=
  match (wireOf s p).select with
  | .high => s
  | .low => modWire s p fun w => { w with clockFalls := w.clockFalls + 1 }

/-- R154, R180: the event that the rise of a port's select brings about: the reset of an RESTART
accepted from it, the discarding of a command cut before its last argument byte, or none. -/
def riseEvent (s : State) (p : PortId) : Option Instr :=
  if restartArmedAt s p then some .restartReset
  else if decodes s p then
    match decodeTransaction p (wireOf s p).received with
    | .incomplete => some (.transactionDiscarded p)
    | .complete _ _ => none
    | .empty => none
  else none

/-- R152, R154: the transaction ends at the rise of select; bytes already received are dropped. -/
def selectRises (p : PortId) (s : State) : State :=
  let s1 := modWire s p fun _ => idleWire
  match (wireOf s p).select with
  | .high => s
  | .low =>
    match riseEvent s p with
    | none => s1
    | some c => queued c s1

/-! ## Data out -/

/-- R152, R155: the `n`-th byte the port sends in the transaction in flight: 0x00 while it does not
decode and until a command has taken effect. -/
def sendingByte (s : State) (p : PortId) (n : Nat) : Byte :=
  if decodes s p then
    match decodeTransaction p (wireOf s p).received, (portOf s p).response with
    | .complete _ _, some r => sentByte (wireOf s p).received.length r n
    | .complete _ _, none => 0
    | .empty, _ => 0
    | .incomplete, _ => 0
  else 0

/-- The level of a push-pull output. -/
def pushPull (high : Bool) : PinDrive := if high then .high else .low

/-- The level of an open-drain output. -/
def openDrain (pulledLow : Bool) : PinDrive := if pulledLow then .low else .released

/-- R152, R187: SDOn is driven while SELn is low, the bytes most significant bit first and a new bit at
each falling edge of the clock; it is at high impedance while SELn is high. -/
def dataOutPin (s : State) (p : PortId) : PinDrive :=
  match (wireOf s p).select with
  | .high => .released
  | .low =>
    let sent := (wireOf s p).clockFalls
    pushPull ((sendingByte s p (sent / 8)).getLsbD (7 - sent % 8))

/-! ## The other outputs -/

/-- R187: ATNn is push-pull, low while asserted and high while de-asserted. -/
def attentionPin (s : State) (p : PortId) : PinDrive := pushPull (!attentionLine s p)

/-- R187: K0 to K5 drive high for RUNNING and low otherwise. -/
def permitPin (s : State) (k : SlotId) : PinDrive := pushPull (permitLine s k)

/-- R187: PRB-C is driven low while the probe line is idle; no rule gives its level within a read. -/
def probeClockPin (s : State) : Option PinDrive :=
  if probeLineIdle s then some .low else none

/-- R187: PRB-D is open-drain: a 0 on the line is driven low, a 1 is left to the pull-up. The line
carries no bit of the part's while it is idle; no rule gives the bits of a byte on it their times. -/
def probeDataPin (dataBit : Bool) : PinDrive := openDrain (!dataBit)

end Sys2Proof.Machine
end

