-- ==== Sys2Proof/Safety.lean ====
section
/-! DEFINITION. What it means for the part to be in order, as invariants of its state (R43, R44, R46,
R55, R62 to R65, R91, R141, R143, R168), and the vocabulary of the statements: what a reply leaves at a
port, what a refused command does, what a plan holds, and what a grant's end leaves. -/

namespace Sys2Proof.Machine

/-! ## Replies -/

/-- A port after a complete command (R157) whose response is `r` (R153). -/
def repliedPort (port : Port) (r : Response) : Port :=
  { port with active := true, silence := 0, response := some r }

/-- The ports after a complete command on `p` whose response is `r`; its selector stands. -/
def replied (s : State) (p : PortId) (r : Response) : PartnerPorts :=
  { s.ports with ports := s.ports.ports.set p (repliedPort (portOf s p) r) }

/-- The ports after a complete command on `p` that moves its selector (R167). -/
def repliedAt (s : State) (p : PortId) (selector : Nat) (r : Response) : PartnerPorts :=
  { s.ports with
    ports := s.ports.ports.set p { repliedPort (portOf s p) r with selector := selector } }

/-- R156: a refused command has no effect on any block beyond the sending port's liveness. -/
def refusedWith (s : State) (p : PortId) (status : Status) : State :=
  s.setPorts (replied s p ⟨status, []⟩)

/-! ## The tables the statements name -/

/-- R169: the status that the write of one field gets from a port. -/
def writeStatus (s : State) (p : PortId) (access : FieldAccess) : Status :=
  match access with
  | .maskOf q => if q = p then .ok else .notOwner
  | .liveOf k =>
    if (recordOf s k).owner = some p ∨ setupHolder s = some p then .ok
    else if inSetup s then .notHolder
    else .notOwner
  | .setupOnly =>
    if setupHolder s = some p then .ok else if inSetup s then .notHolder else .setupOnly

/-- R173: what the numbered check of SETUP-EXIT asks. -/
def exitCheck (s : State) (setup : Setup) (n : Nat) : Prop :=
  let img := s.store.image
  match n with
  | 1 => tCold img < tUse img ∧ tUse img < tDis img ∧ tDis img ≤ tMax img ∧ tMax img < tLimit img
  | 2 => (hysteresis img : Int) < tLimit img - tMax img
  | 3 => ∀ a b, a ≠ b → probeLayer img a = probeLayer img b → probeLayer img a = none
  | 4 =>
    ∀ k, (copiedRecord img k).owner ≠ none →
      (copiedRecord img k).coilBottom ≤ (copiedRecord img k).coilTop ∧
        (copiedRecord img k).minPower ≤ (copiedRecord img k).ratedPower
  | 5 => share img 0 + share img 1 + share img 2 + share img 3 ≤ 48
  | 6 =>
    copiedShares img = copiedShares setup.entrySnapshot ∨
      ∀ i, ownerOf s i ≠ none → (frameOf s i).state = .free
  | 7 => lateThreshold img ≤ periodLength img
  | _ => True

/-- R1: what a scan keeps of three answer bytes. -/
def keptReading (address low high check : Byte) : ReadResult :=
  let t := (high ++ low).toInt
  if (address.toNat + low.toNat + high.toNat + check.toNat) % 256 = 255 ∧ -640 ≤ t ∧ t ≤ 2400 then
    .good t
  else .fault

/-- A command that ends the read of slot `n` with a result (R1). -/
def endsRead (s : State) (n : ProbeId) (c : Instr) (r : ReadResult) : Prop :=
  (∃ low high check, c = .probeRead low high check ∧
    r = keptReading (s.scanner.probes[n]).address low high check) ∨
  (c = .answerWindowClose ∧ r = .fault)

/-- R47: a grant record after its grant has ended, its request held on or not. -/
def grantEnded (minRest : Nat) (held : Bool) (g : GrantRecord) : GrantRecord :=
  if 1 ≤ minRest then { g with state := .resting, power := 0, restCount := minRest }
  else if held then { g with state := .waiting, power := 0 }
  else { g with state := .idle, power := 0 }

/-! ## Frames of the statements -/

/-- The pool with its shares, lists, frame states and request fields as they were: only result fields of
held requests may have been written (R57). -/
def poolKept (s t : State) : Prop :=
  t.pool.shares = s.pool.shares ∧ t.pool.freeLists = s.pool.freeLists ∧
    t.pool.postLists = s.pool.postLists ∧ t.pool.replyQueues = s.pool.replyQueues ∧
    ∀ i, (frameOf t i).state = (frameOf s i).state ∧
      (frameOf t i).request = (frameOf s i).request

/-- The blocks that no end of a grant and no alert reaches are as they were. -/
def settingsKept (s t : State) : Prop :=
  t.part = s.part ∧ t.cycle = s.cycle ∧ t.ports = s.ports ∧ t.wires = s.wires ∧ t.store = s.store ∧
    t.table.records = s.table.records ∧ t.alerts.modes = s.alerts.modes ∧
    t.pool.shares = s.pool.shares ∧ t.pool.freeLists = s.pool.freeLists ∧
    t.pool.postLists = s.pool.postLists

/-! ## The sources -/

/-- R51, R160, R161: the owner of the slot is a port that is ACTIVE. -/
def onActivePort (s : State) (k : SlotId) : Prop :=
  ∃ p, (recordOf s k).owner = some p ∧ (portOf s p).active = true

/-- R127: X0 holds the slot back only if its block-obey is yes and X0 is active. -/
def clearOfX0 (s : State) (k : SlotId) : Prop :=
  blockObey s.store.image k = true → lineActive s .x0 = false

/-- R46: none of what bars a grant of the slot holds. -/
def mayRun (s : State) (k : SlotId) : Prop :=
  s.safety.overtemp = false ∧ lineActive s .x1 = false ∧ s.model.state ≠ .none ∧
    inSetup s = false ∧ onActivePort s k ∧ ((recordOf s k).sourceClass = .paid → clearOfX0 s k)

/-- R46: no source is RUNNING while overtemperature or X1 is active, the model is NONE, the part is in
SETUP or its owner port is SILENT, and no PAID source with block-obey set while X0 is active. -/
def SourcesProtected (s : State) : Prop := ∀ k, (grantOf s k).state = .running → mayRun s k

/-- R55: the six turn ranks lie within 0 to 5 and are all different. -/
def RanksPermuted (s : State) : Prop :=
  (∀ k, (grantOf s k).rank < 6) ∧ ∀ k j, (grantOf s k).rank = (grantOf s j).rank → k = j

/-- R43, R44: UNUSED exactly without an owner, granted power 0 in every state but RUNNING, and a rest
count above 0 exactly while RESTING. -/
def GrantsFormed (s : State) : Prop :=
  ∀ k, ((grantOf s k).state = .unused ↔ (recordOf s k).owner = none) ∧
    ((grantOf s k).state ≠ .running → (grantOf s k).power = 0) ∧
    ((grantOf s k).state = .resting ↔ 0 < (grantOf s k).restCount)

/-! ## The end of a grant, its request held on or ended -/

/-- A frame is the only one held for a slot. -/
def holdsAlone (s : State) (i : FrameId) (k : SlotId) : Prop :=
  heldSlot s i = some k ∧ ∀ j, heldSlot s j = some k → j = i

/-- R47: from `s` to `t` the grant of the slot ends with a cause, recorded in the request held for it,
and the request stays held. -/
def endedHolding (cause : EndCause) (s t : State) (i : FrameId) (k : SlotId) : Prop :=
  (frameOf t i).state = (frameOf s i).state ∧
    (frameOf t i).result = { (frameOf s i).result with endCause := cause } ∧
    grantOf t k = grantEnded (recordOf s k).minRest true (grantOf s k)

/-- R49, R81: from `s` to `t` the grant of the slot ends at its target: its HEAT request is reported
DONE with the current period, and the source leaves RUNNING without a held request; a STANDING request
stays held. -/
def endedAtTarget (s t : State) (i : FrameId) (k : SlotId) : Prop :=
  ((frameOf s i).request.kind = 1 →
    (frameOf t i).state = .reported ∧
    (frameOf t i).result = { (frameOf s i).result with
      outcome := .done, endCause := .target, endPeriod := s.planner.period } ∧
    grantOf t k = grantEnded (recordOf s k).minRest false (grantOf s k)) ∧
  ((frameOf s i).request.kind = 2 → endedHolding .target s t i k)

/-- R82: the HEAT request held in a frame expires at the period start that comes next. -/
def lapses (s : State) (i : FrameId) : Prop :=
  (frameOf s i).request.kind = 1 ∧ (frameOf s i).request.span ≠ 0 ∧
    ∃ age, (frameOf s i).state = .held age ∧
      (frameOf s i).request.span.toNat ≤ min 65535 (age + 1)

/-- R160: from `s` to `t` the port that owns the slot has become SILENT. -/
def silenced (s t : State) (k : SlotId) : Prop :=
  ∃ p, (recordOf s k).owner = some p ∧ (portOf s p).active = true ∧ (portOf t p).active = false

/-- R52: the grant record of a RUNNING source once a period start has counted it. -/
def countedRun (g : GrantRecord) : GrantRecord := { g with runCount := min 65535 (g.runCount + 1) }

/-- R57: the result fields of a RUNNING source's request once a period start has counted it. -/
def countedResult (r : Result) : Result := { r with periodsRun := min 65535 (r.periodsRun + 1) }

/-- R123: the commands at which a line takes its active level: the settle that runs out on it, and, with a
settle time of 0, the pin change to it. -/
def takesActiveLevel (s : State) (l : Line) (c : Instr) : Prop :=
  (c = .settleExpiry l ∧
    ∃ x, (lineOf s l).settling = some x ∧ x.target = (lineOf s l).activeLevel) ∨
  (c = .inputPinChange l (lineOf s l).activeLevel ∧ (lineOf s l).pin ≠ (lineOf s l).activeLevel ∧
    (lineOf s l).settling = none ∧ (lineOf s l).settleTime = 0)

/-- R38, R44, R45, R75, R79: at most one HEAT or STANDING request is held for a slot, in a frame of the
port that owns the slot; none is held for an IDLE or UNUSED slot, and one is for a WAITING or RUNNING
slot. -/
def RequestsMatchSlots (s : State) : Prop :=
  (∀ i j k, heldSlot s i = some k → heldSlot s j = some k → i = j) ∧
    (∀ i k, heldSlot s i = some k →
      (∃ p, ownerOf s i = some p ∧ (recordOf s k).owner = some p) ∧
        (grantOf s k).state ≠ .idle ∧ (grantOf s k).state ≠ .unused) ∧
    ∀ k, (grantOf s k).state = .waiting ∨ (grantOf s k).state = .running →
      ∃ i, heldSlot s i = some k

/-- R41: at an accepted exit the slot is taken as a new source. -/
def slotRenewed (s : State) (k : SlotId) : Prop :=
  let new := copiedRecord s.store.image k
  new.owner ≠ none ∧
    (new.owner ≠ (recordOf s k).owner ∨ new.sourceClass ≠ (recordOf s k).sourceClass ∨
      new.coilBottom ≠ (recordOf s k).coilBottom ∨ new.coilTop ≠ (recordOf s k).coilTop)

/-- R41: at an accepted exit the slot's owner changes to NONE. -/
def slotEmptied (s : State) (k : SlotId) : Prop :=
  (copiedRecord s.store.image k).owner = none ∧ (recordOf s k).owner ≠ none

/-! ## The frames -/

/-- R62 to R65: a list of a port holds exactly the port's frames in a state, each once. -/
def listsFrames (s : State) (p : PortId) (st : FrameState) (l : List FrameId) : Prop :=
  l.Nodup ∧ ∀ i, i ∈ l ↔ ownerOf s i = some p ∧ (frameOf s i).state = st

/-- R61, R181: the shares in force are those of the image that the copies were last taken from; a part
that is not running is not in SETUP. -/
def sharesCopied (s : State) : Prop :=
  match s.store.setup with
  | none => s.pool.shares = copiedShares s.store.image
  | some setup => isRunning s = true ∧ s.pool.shares = copiedShares setup.entrySnapshot

/-- R62 to R65: the three lists of every port and the states of its frames agree; a frame that no port
owns is FREE. -/
def FramesListed (s : State) : Prop :=
  sharesCopied s ∧
    (∀ p, listsFrames s p .free (freeList s p) ∧ listsFrames s p .posted (postList s p) ∧
      listsFrames s p .reported (replyQueue s p)) ∧
    ∀ i, ownerOf s i = none → (frameOf s i).state = .free

/-! ## The planner -/

/-- R89, R91, R107, R109, R181: the planner is SUSPENDED exactly while the part is in SETUP; outside
PLANNING the late-request mark is clear; a late plan in flight lists no revocation; the timer runs exactly
from the first scan completion on; and a part that is not running is not in SETUP and has no scan in flight
and none completed. -/
def PlannerInOrder (s : State) : Prop :=
  (s.planner.state = .suspended ↔ inSetup s = true) ∧
    (planInFlight s = false → s.planner.lateMark = false) ∧
    (∀ plan, s.planner.state = .planningLate plan → plan.revocations = []) ∧
    s.planner.timerRunning = s.model.scanCompleted ∧
    (isRunning s = false →
      inSetup s = false ∧ s.scanner.scan = none ∧ s.model.scanCompleted = false)

/-! ## A plan

The propositions below say of a plan what R95 to R103, R108 and R109 say, on the state at its
beginning. -/

/-- R97, R108: what a plan presents to its formation. -/
def presented (s : State) : FormationInputs where
  layers := s.planner.snapshot.layers
  model := s.planner.snapshot.model
  cycle := s.planner.snapshot.cycle
  comfortAmounts := ((List.finRange 48).filter fun i =>
    isHeld s i && (frameOf s i).request.kind == 4).map fun i => (frameOf s i).request.amount.toNat
  reserveAmounts := ((List.finRange 48).filter fun i =>
    isHeld s i && (frameOf s i).request.kind == 3).map fun i => (frameOf s i).request.amount.toNat
  settings := s.store.image

/-- R96: the plan is blocked. -/
def isBlocked (s : State) : Prop :=
  s.safety.overtemp = true ∨ lineActive s .x1 = true ∨ s.model.state = .none ∨
    s.planner.snapshot.model = .none

/-- R53, R98: the effective target of a grant of the slot under a held request. -/
def plannedTarget (s : State) (k : SlotId) (i : FrameId) : Int :=
  let ceiling := (recordOf s k).ceiling
  let unraised :=
    if (frameOf s i).request.kind = 1 then
      min (min (frameOf s i).request.target.toInt ceiling) (tMax s.store.image)
    else min ceiling (tMax s.store.image)
  if (recordOf s k).sourceClass = .paid ∧ s.planner.snapshot.cycle = .due then
    min (max unraised (tDis s.store.image)) ceiling
  else unraised

/-- R98: the target test of a used slot with its held request. -/
def belowTarget (s : State) (k : SlotId) : Prop :=
  ∃ i, heldFor s k = some i ∧
    s.planner.snapshot.layers[(recordOf s k).coilTop] < plannedTarget s k i

/-- A used slot of a class with a held request. -/
def usedWithRequest (s : State) (c : SourceClass) (k : SlotId) : Prop :=
  (recordOf s k).owner ≠ none ∧ (recordOf s k).sourceClass = c ∧ heldFor s k ≠ none

/-- R100, R109: RUNNING in the inputs of a full plan with a run count below the minimum run. -/
def runsUnderMinimum (s : State) (kind : PlanKind) (k : SlotId) : Prop :=
  kind = .full ∧ (grantOf s k).state = .running ∧ (grantOf s k).runCount < (recordOf s k).minRun

/-- R99, R100, R109: a FREE source that the plan grants. -/
def grantsFree (s : State) (kind : PlanKind) (k : SlotId) : Prop :=
  usedWithRequest s .free k ∧
    (runsUnderMinimum s kind k ∨
      ((grantOf s k).state = .waiting ∨ (kind = .full ∧ (grantOf s k).state = .running)) ∧
        onActivePort s k ∧ belowTarget s k)

/-- R99, R109: an eligible candidate. -/
def isCandidate (s : State) (kind : PlanKind) (k : SlotId) : Prop :=
  usedWithRequest s .paid k ∧
    ((grantOf s k).state = .waiting ∨
      (kind = .full ∧ (grantOf s k).state = .running ∧
        (recordOf s k).minRun ≤ (grantOf s k).runCount)) ∧
    onActivePort s k ∧ clearOfX0 s k ∧
    (formFigures (presented s)).lineInUse ≤ (recordOf s k).coilBottom.val ∧ belowTarget s k ∧
    (s.planner.snapshot.cycle = .due → tDis s.store.image ≤ (recordOf s k).ceiling)

/-- R101: merit ascending, and among equal merits turn rank descending. -/
def comesBefore (s : State) (k j : SlotId) : Prop :=
  meritOf s.store.image k < meritOf s.store.image j ∨
    (meritOf s.store.image k = meritOf s.store.image j ∧ (grantOf s j).rank < (grantOf s k).rank)

/-- R102, R109: the remaining need that the allotment starts at. -/
def needAtStart (s : State) (kind : PlanKind) : Nat :=
  let need := (formFigures (presented s)).published.need
  match kind with
  | .full => need
  | .late =>
    need - (((List.finRange 6).filter fun k =>
      (grantOf s k).state == .running && (recordOf s k).sourceClass == .paid).map fun k =>
        (grantOf s k).power).sum

/-- The sum of the powers of some entries. -/
def powersOf (entries : List GrantEntry) : Nat := (entries.map (·.power)).sum

/-- R103: what an entry names: the slot, its held request, the effective target, whether the source was
RUNNING, and the merit. -/
def entryFormed (s : State) (e : GrantEntry) : Prop :=
  heldFor s e.slot = some e.frame ∧ e.target = plannedTarget s e.slot e.frame ∧
    (e.wasRunning = true ↔ (grantOf s e.slot).state = .running) ∧
    e.merit = meritOf s.store.image e.slot

/-- R102, steps 1 to 3: each entry's power from what the entries before it leave of the need. -/
def powersAllotted (s : State) (need : Nat) (entries : List GrantEntry) : Prop :=
  ∀ earlier e later, entries = earlier ++ e :: later →
    e.power = max (recordOf s e.slot).minPower
      (min (recordOf s e.slot).ratedPower (need - powersOf earlier))

/-- R99 to R103, R109: the grant list of a plan that is not blocked, in its three parts: the FREE
sources in slot order, the held-over PAID sources and the granted candidates, each in candidate order;
with its contested marks and its revocation list. -/
def grantsChosen (kind : PlanKind) (s : State) (plan : Plan)
    (free heldOn candidates : List GrantEntry) : Prop :=
  let need := needAtStart s kind
  plan.grants = free ++ heldOn ++ candidates ∧ (∀ e, e ∈ plan.grants → entryFormed s e) ∧
    (∀ k, (∃ e, e ∈ free ∧ e.slot = k) ↔ grantsFree s kind k) ∧
    (free.Pairwise fun d e => d.slot < e.slot) ∧
    (∀ e, e ∈ free → e.power = (recordOf s e.slot).ratedPower) ∧
    (∀ k, (∃ e, e ∈ heldOn ∧ e.slot = k) ↔ usedWithRequest s .paid k ∧ runsUnderMinimum s kind k) ∧
    (heldOn.Pairwise fun d e => comesBefore s d.slot e.slot) ∧
    (∀ e, e ∈ candidates → isCandidate s kind e.slot) ∧
    (candidates.Pairwise fun d e => comesBefore s d.slot e.slot) ∧
    powersAllotted s need (heldOn ++ candidates) ∧
    (∀ earlier e later, candidates = earlier ++ e :: later → powersOf (heldOn ++ earlier) < need) ∧
    (∀ k, isCandidate s kind k → (∀ e, e ∈ candidates → e.slot ≠ k) →
      need ≤ powersOf (heldOn ++ candidates) ∧ ∀ e, e ∈ candidates → comesBefore s e.slot k) ∧
    (∀ m, m ∈ plan.contested ↔ ∃ k, isCandidate s kind k ∧
      (∀ e, e ∈ candidates → e.slot ≠ k) ∧ meritOf s.store.image k = m) ∧
    ∀ k, k ∈ plan.revocations ↔ kind = .full ∧ (grantOf s k).state = .running ∧
      ∀ e, e ∈ plan.grants → e.slot ≠ k

/-- R95 to R103, R108, R109: what a plan that begins in a state holds. -/
def planHolds (kind : PlanKind) (s : State) (plan : Plan) : Prop :=
  plan.figures = (formFigures (presented s)).published ∧
    (isBlocked s → plan.grants = [] ∧ plan.revocations = [] ∧ plan.contested = []) ∧
    (¬isBlocked s → ∃ free heldOn candidates, grantsChosen kind s plan free heldOn candidates)

/-! ## A plan's completion -/

/-- R46, R104: the completion takes an entry: its request is still HELD, its source may run, and the
source is in the state the plan saw. -/
def entryTaken (s : State) (e : GrantEntry) : Prop :=
  isHeld s e.frame = true ∧ mayRun s e.slot ∧
    (grantOf s e.slot).state = if e.wasRunning then .running else .waiting

/-- R56: the entry causes a rotation: newly granted, PAID, of a contested group. -/
def entryWins (s : State) (plan : Plan) (e : GrantEntry) : Prop :=
  entryTaken s e ∧ e.wasRunning = false ∧ (recordOf s e.slot).sourceClass = .paid ∧
    e.merit ∈ plan.contested

/-- R46, R47, R48, R56, R57, R104: from `s` to `t` a plan whose entries name different slots, none of
them on the revocation list, is applied. A grant record is given up to its turn rank; the ranks are
rotated for the winners in grant order. -/
def planApplied (plan : Plan) (s t : State) : Prop :=
  let upToRank (k : SlotId) (g : GrantRecord) : Prop :=
    grantOf t k = { g with rank := (grantOf t k).rank }
  (∀ e, e ∈ plan.grants → entryTaken s e → e.wasRunning = false →
    upToRank e.slot { grantOf s e.slot with
      state := .running, power := e.power, target := e.target, runCount := 0,
      firstGrant := s.planner.period, requestGranted := true } ∧
    ∀ i, heldFor s e.slot = some i → (frameOf t i).result =
      if (grantOf s e.slot).requestGranted then (frameOf s i).result
      else { (frameOf s i).result with firstGrant := s.planner.period }) ∧
  (∀ e, e ∈ plan.grants → entryTaken s e → e.wasRunning = true →
    upToRank e.slot { grantOf s e.slot with power := e.power, target := e.target } ∧
    ∀ i, heldFor s e.slot = some i → (frameOf t i).result = (frameOf s i).result) ∧
  (∀ e, e ∈ plan.grants → ¬entryTaken s e →
    upToRank e.slot (grantOf s e.slot) ∧
    ∀ i, heldFor s e.slot = some i → (frameOf t i).result = (frameOf s i).result) ∧
  (∀ k, k ∈ plan.revocations → (grantOf s k).state = .running →
    upToRank k (grantEnded (recordOf s k).minRest (heldFor s k).isSome (grantOf s k)) ∧
    ∀ i, heldFor s k = some i →
      (frameOf t i).result = { (frameOf s i).result with endCause := .plan }) ∧
  (∀ k, (∀ e, e ∈ plan.grants → e.slot ≠ k) →
    k ∉ plan.revocations ∨ (grantOf s k).state ≠ .running → upToRank k (grantOf s k)) ∧
  ∃ winners : List SlotId, winners.Sublist (plan.grants.map (·.slot)) ∧
    (∀ e, e ∈ plan.grants → (e.slot ∈ winners ↔ entryWins s plan e)) ∧
    ∀ k, (grantOf t k).rank = (grantOf (winners.foldl rotateRanks s) k).rank

/-- The entries of a plan name different slots, none of them on its revocation list. -/
def PlanFormed (plan : Plan) : Prop :=
  (plan.grants.map (·.slot)).Nodup ∧ ∀ e, e ∈ plan.grants → e.slot ∉ plan.revocations

/-! ## The alerts -/

/-- R138, R141, R143: only subscribed kinds are pending at a port, no kind stands in both of its sets, a
kind in EDGE mode is not awaiting clear, and an edge-only kind is in EDGE mode. -/
def AlertSetsFormed (s : State) : Prop :=
  ∀ p k, (k ∈ pendingOf s p → subscribed s p k = true) ∧
    ¬(k ∈ pendingOf s p ∧ k ∈ awaitingOf s p) ∧
    (modeOf s k = .edge → k ∉ awaitingOf s p) ∧
    (levelCapable k = false → modeOf s k = .edge)

/-- R143: a level-capable kind in LEVEL mode is pending at a port exactly when the port is subscribed
to it, its condition is true and it is not awaiting clear there. -/
def LevelKindsFollow (s : State) : Prop :=
  ∀ p k, levelCapable k = true → modeOf s k = .level →
    (k ∈ pendingOf s p ↔
      subscribed s p k = true ∧ condition s k = true ∧ k ∉ awaitingOf s p)

/-! ## The settings -/

/-- R168, R178: every field of an image holds a value that a write could store, and every gap and pad
byte holds 0. The check word is formed at each read, so its two bytes are gaps of the model's image. -/
def imageInRange (img : Image) : Prop :=
  (∀ f, f ∈ fieldTable →
    storedValue f.form (fieldValue (imageByte img) f) = fieldValue (imageByte img) f) ∧
  ∀ i, i < 256 → fieldAt i = none → imageByte img i = 0

/-- R168: the live image and, in SETUP, the entry snapshot hold no value out of range. -/
def ImagesInRange (s : State) : Prop :=
  imageInRange s.store.image ∧ ∀ setup, s.store.setup = some setup → imageInRange setup.entrySnapshot

end Sys2Proof.Machine
end

