-- ==== Sys2Proof/Certificates/Slice0/Obligations.lean ====
section
/-! DEFINITION. The statements for the provers, from the spec's numbered rules. Each names the rule it
follows. -/

open Sys2Proof Sys2Proof.Machine

/-! ## The queue, the commands and their bytes -/

/-- A step runs the command at the front of the queue on the state with the queue's rest. The queue is
the model's own (log entry 16). -/
def Obligations.StepRunsFrontCommand : Prop :=
  ∀ (c : Instr) (rest : List Instr) (s : State), s.pending = c :: rest →
    step s = exec c { s with pending := rest }

/-- R156: no command stops the part, and no command touches the queue behind it. That the queue is kept
through a reset is the model's choice (log entry 21). -/
def Obligations.EveryCommandCompletes : Prop :=
  ∀ (c : Instr) (s : State), ∃ t, exec c s = .next t ∧ t.pending = s.pending

/-- R152, R153, R183: the bytes of every partner command that can be sent decode to it, whatever follows
them, and a transaction cut before its last byte holds no complete command. On the wire, eight rising clock
edges bring in one byte, most significant bit first, and the bytes of a command, received on a port that
decodes with nothing received before, put that command at the tail of the queue. That an edge changes the
port's wires alone and that a command comes by the queue are the model's choice (log entries 17 and
16). -/
def Obligations.TransactionBytesDecodeBack : Prop :=
  (∀ (c : Instr) (p : PortId) (bytes : List Byte),
    c.wellFormed = true → transactionBytes c = some (p, bytes) →
      (∀ rest, decodeTransaction p (bytes ++ rest) = .complete c rest) ∧
      ∀ n, 0 < n → n < bytes.length → decodeTransaction p (bytes.take n) = .incomplete) ∧
  (∀ (p : PortId) (b : Byte) (s : State), (wireOf s p).select = .low → (wireOf s p).bits = [] →
    [7, 6, 5, 4, 3, 2, 1, 0].foldl (fun u j => clockRises p (b.getLsbD j) u) s =
      byteReceived p b s) ∧
  ∀ (c : Instr) (p : PortId) (bytes : List Byte) (s : State),
    c.wellFormed = true → transactionBytes c = some (p, bytes) → decodes s p = true →
    (wireOf s p).received = [] →
      (bytes.foldl (fun u b => byteReceived p b u) s).pending = s.pending ++ [c]

/-- R152 to R156, R187: a port that does not decode takes no command and sends 0x00: every port until the
start-up load completes, and one whose select fell before it, up to the rise of its select. A cut command
changes nothing; a byte that names no command is refused with BAD-COMMAND and makes its port ACTIVE. A port
that decodes sends 0x00 up to the turn byte, then the status byte, the result bytes and 0x00; its data out
pin is driven exactly while select is low, most significant bit first. What the other output pins carry, in
every state: R54: a permit line is high exactly while the part runs and its slot is RUNNING. R150: an
attention line is asserted exactly while the part runs and the port's reply queue or pending set is not empty,
and its pin is low while it is asserted. PRB-C is low while no probe is being read; PRB-D is never driven
high. -/
def Obligations.CommandsWithoutEffect : Prop :=
  (∀ (c : Instr) (p : PortId) (bytes : List Byte) (s : State),
    transactionBytes c = some (p, bytes) → decodes s p = false → exec c s = .next s) ∧
  (∀ (p : PortId) (s : State), exec (.transactionDiscarded p) s = .next s) ∧
  (∀ (p : PortId) (code : Byte) (s : State), decodes s p = true →
    exec (.badCommand p code) s = .next (refusedWith s p .badCommand)) ∧
  (∀ (p : PortId) (s : State),
    (isRunning s = false → decodes s p = false) ∧
    (isRunning s = false → (wireOf s p).select = .high →
      (wireOf (selectFalls p s) p).disregarded = true) ∧
    ((wireOf s p).disregarded = true → decodes s p = false ∧
      ∀ bit, (wireOf (clockRises p bit s) p).disregarded = true ∧
        (clockRises p bit s).pending = s.pending) ∧
    ((wireOf s p).select = .low → wireOf (selectRises p s) p = idleWire) ∧
    (decodes s p = false → ∀ n, sendingByte s p n = 0)) ∧
  (∀ (p : PortId) (c : Instr) (r : Response) (s : State), decodes s p = true →
    decodeTransaction p (wireOf s p).received = .complete c [] → (portOf s p).response = some r →
      (∀ n, n ≤ (wireOf s p).received.length → sendingByte s p n = 0) ∧
      sendingByte s p ((wireOf s p).received.length + 1) = statusCode r.status ∧
      ∀ j, sendingByte s p ((wireOf s p).received.length + 2 + j) = r.bytes.getD j 0) ∧
  ∀ (p : PortId) (s : State),
    (dataOutPin s p = .released ↔ (wireOf s p).select = .high) ∧
    ((wireOf s p).select = .low → ∀ n bit, bit < 8 → (wireOf s p).clockFalls = 8 * n + bit →
      (dataOutPin s p = .high ↔ (sendingByte s p n).getLsbD (7 - bit) = true)) ∧
    (attentionLine s p = true ↔
      isRunning s = true ∧ (replyQueue s p ≠ [] ∨ pendingOf s p ≠ [])) ∧
    attentionPin s p = (if attentionLine s p then .low else .high) ∧
    (∀ k, (permitLine s k = true ↔ isRunning s = true ∧ (grantOf s k).state = .running) ∧
      permitPin s k = if permitLine s k then .high else .low) ∧
    ((∀ scan, s.scanner.scan = some scan → scan.toRead = []) → probeClockPin s = some .low) ∧
    probeDataPin false = .low ∧ probeDataPin true = .released

/-! ## Commands of the port -/

/-- R162, R185: IDENT answers the part code, the revision and the reset cause record, and changes
nothing but the port's liveness. -/
def Obligations.IdentAnswers : Prop :=
  ∀ (p : PortId) (s : State), decodes s p = true →
    ∃ cause : Byte,
      exec (.ident p) s = .next (s.setPorts (replied s p ⟨.ok, [0x64, 0x20, 0x01, cause]⟩)) ∧
      cause.getLsbD 0 = s.part.cause.powerOn ∧ cause.getLsbD 1 = s.part.cause.resetPin ∧
      cause.getLsbD 2 = s.part.cause.supplyLow ∧ cause.getLsbD 3 = s.part.cause.restart ∧
      ∀ j, 4 ≤ j → cause.getLsbD j = false

/-- R162, R185: STATUS answers its 15 bytes; the sending port reads itself ACTIVE with count 0. -/
def Obligations.StatusAnswers : Prop :=
  ∀ (p : PortId) (s : State), decodes s p = true →
    ∃ states : Byte,
      exec (.status p) s = .next (s.setPorts (replied s p ⟨.ok,
        [byteOf p.val, states]
          ++ allPorts.map (fun q => if q = p then 0 else byteOf (portOf s q).silence)
          ++ [portCode (setupHolder s), modelStateCode s.model.state]
          ++ wordBytes s.planner.period ++ numberBytes s.planner.secondsRemaining
          ++ [plannerStateCode s.planner.state, if s.store.storing.isSome then 1 else 0,
              storeResultCode s.store.lastStore]⟩)) ∧
      (∀ q : PortId, states.getLsbD q.val = (decide (q = p) || (portOf s q).active)) ∧
      ∀ j, 4 ≤ j → states.getLsbD j = false

/-- R26, R27, R163, R184: MODEL-READ answers its 79 bytes, among them the live stored energy and Ecomf, and
changes nothing but the port's liveness. -/
def Obligations.ModelReadAnswers : Prop :=
  ∀ (p : PortId) (s : State), decodes s p = true →
    ∃ bytes : List Byte,
      exec (.modelRead p) s = .next (s.setPorts (replied s p ⟨.ok, bytes⟩)) ∧
      bytes.length = 79 ∧
      (∀ i : LayerId, (bytes.drop (2 * i.val)).take 2 = tempBytes s.model.layers[i]) ∧
      (∀ n : ProbeId, (bytes.drop (24 + 4 * n.val)).take 4 =
        [probeStateCode (s.scanner.probes[n]).state, byteOf (s.scanner.probes[n]).holdCount]
          ++ tempBytes (s.scanner.probes[n]).lastValid) ∧
      bytes.drop 56 =
        [modelStateCode s.model.state, if s.model.inversion then 1 else 0]
          ++ numberBytes (min 65535 ((List.finRange 12).map fun i =>
              (imageByte s.store.image i.val).toNat
                * (s.model.layers[i] - tCold s.store.image).toNat * 1163 / 16000).sum)
          ++ numberBytes (min 65535 (((List.finRange 12).filter fun i =>
              (imageByte s.store.image 0x030).toNat ≤ i.val).map fun i =>
                (imageByte s.store.image i.val).toNat
                  * (s.model.layers[i] - tUse s.store.image).toNat * 1163 / 16000).sum)
          ++ numberBytes s.planner.published.comfort ++ numberBytes s.planner.published.deficit
          ++ numberBytes s.planner.published.reservation
          ++ [byteOf s.planner.published.line,
              byteOf (s.planner.published.yieldFlag.toNat
                + 2 * s.planner.published.setAside.toNat)]
          ++ numberBytes s.planner.published.need
          ++ [byteOf (s.safety.overtemp.toNat + 2 * (lineActive s .x0).toNat
                + 4 * (lineActive s .x1).toNat),
              cycleStateCode s.cycle.state]
          ++ numberBytes s.cycle.sinceSuccess ++ numberBytes s.cycle.sinceDue
          ++ [byteOf s.cycle.holdCount]

/-- R164, R185: SOURCE-READ answers the 26 bytes of a slot, merit and block-obey from the image as it
stands, and BAD-ARGUMENT for a slot of 6 or more. -/
def Obligations.SourceReadAnswers : Prop :=
  ∀ (p : PortId) (slot : Byte) (s : State), decodes s p = true →
    (6 ≤ slot.toNat → exec (.sourceRead p slot) s = .next (refusedWith s p .badArgument)) ∧
    ∀ k : SlotId, slot.toNat = k.val →
      exec (.sourceRead p slot) s = .next (s.setPorts (replied s p ⟨.ok,
        [portCode (recordOf s k).owner, if (recordOf s k).sourceClass = .paid then 1 else 0,
         byteOf (recordOf s k).coilBottom.val, byteOf (recordOf s k).coilTop.val]
          ++ numberBytes (recordOf s k).ratedPower ++ numberBytes (recordOf s k).minPower
          ++ [byteOf (meritOf s.store.image k), if blockObey s.store.image k then 1 else 0,
              byteOf (recordOf s k).minRun, byteOf (recordOf s k).minRest]
          ++ tempBytes (recordOf s k).ceiling
          ++ [grantStateCode (grantOf s k).state] ++ numberBytes (grantOf s k).power
          ++ tempBytes (grantOf s k).target ++ numberBytes (grantOf s k).runCount
          ++ [byteOf (grantOf s k).restCount] ++ wordBytes (grantOf s k).firstGrant
          ++ [if (grantOf s k).requestGranted then 1 else 0, byteOf (grantOf s k).rank]⟩))

/-! ## Frame commands -/

/-- R66: a command that names a frame is checked for the index, the owner, the range of FILL and the
state, in this order, and a refused one changes nothing but the port's liveness. -/
def Obligations.FrameCommandsCheckInOrder : Prop :=
  ∀ (p : PortId) (index offset : Byte) (data : List Byte) (s : State), decodes s p = true →
    (∀ c, c ∈ [Instr.fill p index offset data, .frameRead p index, .post p index,
          .giveBack p index, .release p index] →
      (48 ≤ index.toNat → exec c s = .next (refusedWith s p .badArgument)) ∧
      ∀ i : FrameId, index.toNat = i.val → ownerOf s i ≠ some p →
        exec c s = .next (refusedWith s p .notOwner)) ∧
    ∀ i : FrameId, index.toNat = i.val → ownerOf s i = some p →
      (¬(offset.toNat ≤ 11 ∧ 1 ≤ data.length ∧ offset.toNat + data.length ≤ 12) →
        exec (.fill p index offset data) s = .next (refusedWith s p .badArgument)) ∧
      (offset.toNat ≤ 11 ∧ 1 ≤ data.length ∧ offset.toNat + data.length ≤ 12 →
        (frameOf s i).state ≠ .taken →
          exec (.fill p index offset data) s = .next (refusedWith s p .wrongState)) ∧
      ((frameOf s i).state = .free →
        exec (.frameRead p index) s = .next (refusedWith s p .wrongState)) ∧
      ((frameOf s i).state ≠ .taken →
        exec (.post p index) s = .next (refusedWith s p .wrongState) ∧
        exec (.giveBack p index) s = .next (refusedWith s p .wrongState)) ∧
      ((frameOf s i).state ≠ .collected →
        exec (.release p index) s = .next (refusedWith s p .wrongState))

/-- R67: TAKE hands out the head of the free list with its 20 bytes at 0, and NONE with 0xFF from an
empty list. -/
def Obligations.TakeAnswers : Prop :=
  frameBytes (clearedFrame .taken) = List.replicate 20 0 ∧
  ∀ (p : PortId) (s : State), decodes s p = true →
    (freeList s p = [] →
      exec (.take p) s = .next (s.setPorts (replied s p ⟨.noItem, [0xFF]⟩))) ∧
    ∀ i rest, freeList s p = i :: rest →
      exec (.take p) s = .next ((s.setPorts (replied s p ⟨.ok, [byteOf i.val]⟩)).setPool
        { s.pool with freeLists := s.pool.freeLists.set p rest
                      frames := s.pool.frames.set i (clearedFrame .taken) })

/-- R68, R182: FILL writes its data into the request bytes from the offset onward, the pad byte stores
0, and nothing else of the frame or of the part changes. -/
def Obligations.FillWritesRequestBytes : Prop :=
  ∀ (p : PortId) (index offset : Byte) (data : List Byte) (i : FrameId) (s : State),
    decodes s p = true → index.toNat = i.val → ownerOf s i = some p →
    (frameOf s i).state = .taken → offset.toNat ≤ 11 → 1 ≤ data.length →
    offset.toNat + data.length ≤ 12 →
      ∃ r : Request,
        exec (.fill p index offset data) s = .next ((s.setPorts (replied s p ⟨.ok, []⟩)).setPool
          { s.pool with frames := s.pool.frames.set i { frameOf s i with request := r } }) ∧
        ∀ j, j < 12 → (requestBytes r).getD j 0 =
          if j = 11 then 0
          else if offset.toNat ≤ j ∧ j < offset.toNat + data.length then
            data.getD (j - offset.toNat) 0
          else (requestBytes (frameOf s i).request).getD j 0

/-- R69, R182: FRAME-READ answers the 20 bytes of a frame that is not FREE and changes nothing but the
port's liveness. -/
def Obligations.FrameReadAnswers : Prop :=
  ∀ (p : PortId) (index : Byte) (i : FrameId) (s : State),
    decodes s p = true → index.toNat = i.val → ownerOf s i = some p →
    (frameOf s i).state ≠ .free →
      exec (.frameRead p index) s = .next (s.setPorts (replied s p ⟨.ok,
        [(frameOf s i).request.kind, (frameOf s i).request.slot]
          ++ wordBytes (frameOf s i).request.tag ++ wordBytes (frameOf s i).request.target
          ++ wordBytes (frameOf s i).request.amount ++ wordBytes (frameOf s i).request.span
          ++ [(frameOf s i).request.cancel, 0, outcomeCode (frameOf s i).result.outcome,
              causeCode (frameOf s i).result.endCause]
          ++ wordBytes (frameOf s i).result.firstGrant
          ++ numberBytes (frameOf s i).result.periodsRun
          ++ wordBytes (frameOf s i).result.endPeriod⟩))

/-- R70: POST clears the five result fields of a TAKEN frame, makes it POSTED and puts it at the tail of
the post list. -/
def Obligations.PostAnswers : Prop :=
  ∀ (p : PortId) (index : Byte) (i : FrameId) (s : State),
    decodes s p = true → index.toNat = i.val → ownerOf s i = some p →
    (frameOf s i).state = .taken →
      exec (.post p index) s = .next ((s.setPorts (replied s p ⟨.ok, []⟩)).setPool
        { s.pool with
          frames := s.pool.frames.set i
            { state := .posted, request := (frameOf s i).request,
              result := { outcome := .noOutcome, endCause := .noCause, firstGrant := 0,
                          periodsRun := 0, endPeriod := 0 } }
          postLists := s.pool.postLists.set p (postList s p ++ [i]) })

/-- R71, R73: GIVE-BACK of a TAKEN frame and RELEASE of a COLLECTED one make it FREE, its bytes as they
were, and put it at the tail of the free list. -/
def Obligations.GiveBackAndReleaseFreeFrames : Prop :=
  ∀ (p : PortId) (index : Byte) (i : FrameId) (s : State),
    decodes s p = true → index.toNat = i.val → ownerOf s i = some p →
      ∀ c, (c = .giveBack p index ∧ (frameOf s i).state = .taken) ∨
          (c = .release p index ∧ (frameOf s i).state = .collected) →
        exec c s = .next ((s.setPorts (replied s p ⟨.ok, []⟩)).setPool
          { s.pool with
            frames := s.pool.frames.set i { frameOf s i with state := .free }
            freeLists := s.pool.freeLists.set p (freeList s p ++ [i]) })

/-- R72: REPLY-TAKE removes the head of the reply queue, makes its frame COLLECTED and answers its index
and outcome; an empty queue answers NONE, 0xFF and 0. -/
def Obligations.ReplyTakeAnswers : Prop :=
  ∀ (p : PortId) (s : State), decodes s p = true →
    (replyQueue s p = [] →
      exec (.replyTake p) s = .next (s.setPorts (replied s p ⟨.noItem, [0xFF, 0]⟩))) ∧
    ∀ i rest, replyQueue s p = i :: rest →
      exec (.replyTake p) s = .next ((s.setPorts (replied s p
          ⟨.ok, [byteOf i.val, outcomeCode (frameOf s i).result.outcome]⟩)).setPool
        { s.pool with
          frames := s.pool.frames.set i { frameOf s i with state := .collected }
          replyQueues := s.pool.replyQueues.set p rest })

/-! ## The intake -/

/-- R74: the intake takes nothing while it is held off or the post list is empty. That the command then
changes nothing is the model's choice (log entry 3). -/
def Obligations.IntakeHeldOff : Prop :=
  ∀ (p : PortId) (s : State),
    (inSetup s = true ∨ planInFlight s = true ∨ postList s p = []) →
      exec (.intakeTake p) s = .next s

/-- R75: the intake refuses the head frame with the outcome of the first check that fails and reports
it; its request fields stay as written. -/
def Obligations.IntakeRefusesByFirstFailingCheck : Prop :=
  ∀ (p : PortId) (i : FrameId) (rest : List FrameId) (outcome : FrameOutcome) (s : State),
    isRunning s = true → inSetup s = false → planInFlight s = false →
    postList s p = i :: rest → ownerOf s i = some p →
    (((frameOf s i).request.kind = 0 ∨ 6 ≤ (frameOf s i).request.kind.toNat) ∧
        outcome = .refusedBad ∨
      ((frameOf s i).request.kind = 1 ∨ (frameOf s i).request.kind = 2) ∧
        (∀ k : SlotId, (frameOf s i).request.slot.toNat = k.val →
          (recordOf s k).owner ≠ some p) ∧ outcome = .refusedOwner ∨
      ((frameOf s i).request.kind = 1 ∨ (frameOf s i).request.kind = 2) ∧
        (∃ k : SlotId, (frameOf s i).request.slot.toNat = k.val ∧
          (recordOf s k).owner = some p ∧ ∃ j, heldSlot s j = some k) ∧ outcome = .refusedBusy ∨
      (frameOf s i).request.kind = 5 ∧
        (∀ j : FrameId, (frameOf s i).request.cancel.toNat = j.val → ownerOf s j = some p →
          isHeld s j = false) ∧ outcome = .refusedUnknown) →
      exec (.intakeTake p) s = .next (s.setPool { s.pool with
        frames := s.pool.frames.set i
          { frameOf s i with
            state := .reported
            result := { (frameOf s i).result with outcome := outcome
                                                  endPeriod := s.planner.period } }
        postLists := s.pool.postLists.set p rest
        replyQueues := s.pool.replyQueues.set p (replyQueue s p ++ [i]) })

/-- R76, R77, R107, R108: an accepted RESERVE, COMFORT, HEAT or STANDING frame becomes HELD with age 0
and its used fields clamped; a HEAT or STANDING request moves an IDLE source to WAITING, clears its
request-granted mark, and, with the timer running and the seconds remaining at least the threshold, a
late plan begins at once, and holds what R108 and R109 say. Where other ports have frames posted, what is
taken before the plan and which asks merge are free (log entries 8 and 24), so the clause asks that they
have none. R92: an ask that finds a plan in flight sets the mark alone, and one in SETUP is discarded. -/
def Obligations.IntakeHoldsAcceptedRequest : Prop :=
  (∀ s : State,
    (planInFlight s = true →
      latePlanAsk s = s.setPlanner { s.planner with lateMark := true }) ∧
    (s.planner.state = .suspended → latePlanAsk s = s)) ∧
  ∀ (p : PortId) (i : FrameId) (rest : List FrameId) (s : State),
    isRunning s = true → inSetup s = false → planInFlight s = false →
    postList s p = i :: rest →
      let held (r : Request) : State := s.setPool { s.pool with
        frames := s.pool.frames.set i { frameOf s i with state := .held 0, request := r }
        postLists := s.pool.postLists.set p rest }
      ((frameOf s i).request.kind = 3 ∨ (frameOf s i).request.kind = 4 →
        exec (.intakeTake p) s = .next (held { (frameOf s i).request with
          span := BitVec.ofNat 16 (min 1440 (max 1 (frameOf s i).request.span.toNat)) })) ∧
      ∀ k : SlotId, (frameOf s i).request.slot.toNat = k.val → (recordOf s k).owner = some p →
        (∀ j, heldSlot s j ≠ some k) →
        ∀ r : Request,
          ((frameOf s i).request.kind = 1 ∧ r = { (frameOf s i).request with
              target := BitVec.ofInt 16 (min (max (frameOf s i).request.target.toInt
                (tCold s.store.image + 1)) (recordOf s k).ceiling) } ∨
            (frameOf s i).request.kind = 2 ∧ r = (frameOf s i).request) →
          let accepted : State := (held r).setTable { s.table with
            grants := s.table.grants.set k { grantOf s k with
              state := if (grantOf s k).state = .idle then .waiting else (grantOf s k).state
              requestGranted := false } }
          (s.planner.timerRunning = false ∨
              s.planner.secondsRemaining < s.planner.lateThreshold →
            exec (.intakeTake p) s = .next accepted) ∧
          (s.planner.state = .idle → s.planner.timerRunning = true →
            s.planner.lateThreshold ≤ s.planner.secondsRemaining →
            (∀ q, q ≠ p → postList s q = []) →
            ∃ plan, exec (.intakeTake p) s = .next ({ accepted with
              planner := { s.planner with state := .planningLate plan, lateMark := false }
              openDraws := s.openDraws + 1 }) ∧
              (RanksPermuted s → imageInRange s.store.image → planHolds .late accepted plan))

/-- R78, R51: an accepted CANCEL ends the request it names with outcome CANCELLED, the grant of a RUNNING
source first, and is then reported DONE itself; the cancelled frame's entry comes first. -/
def Obligations.IntakeCancelsHeldRequest : Prop :=
  ∀ (p : PortId) (i j : FrameId) (rest : List FrameId) (s : State),
    isRunning s = true → inSetup s = false → planInFlight s = false →
    postList s p = i :: rest →
    ownerOf s i = some p → (frameOf s i).state = .posted → (frameOf s i).request.kind = 5 →
    (frameOf s i).request.cancel.toNat = j.val → ownerOf s j = some p → isHeld s j = true →
      ∃ t, exec (.intakeTake p) s = .next t ∧
        postList t p = rest ∧ replyQueue t p = replyQueue s p ++ [j, i] ∧
        (frameOf t j).state = .reported ∧ (frameOf t j).result.outcome = .cancelled ∧
        (frameOf t j).result.endPeriod = s.planner.period ∧
        (frameOf t i).state = .reported ∧ (frameOf t i).result.outcome = .done ∧
        (frameOf t i).result.endPeriod = s.planner.period ∧
        t = (s.setPool t.pool).setTable t.table ∧ t.table.records = s.table.records ∧
        t.pool.shares = s.pool.shares ∧ t.pool.freeLists = s.pool.freeLists ∧
        (∀ q, q ≠ p → postList t q = postList s q ∧ replyQueue t q = replyQueue s q) ∧
        (∀ m, m ≠ i → m ≠ j → (frameOf t m).state = (frameOf s m).state ∧
          (frameOf t m).request = (frameOf s m).request) ∧
        (heldSlot s j = none → t.table = s.table) ∧
        ∀ k, heldSlot s j = some k →
          (∀ m, m ≠ k → grantOf t m = grantOf s m) ∧
          ((grantOf s k).state = .running → heldFor s k = some j →
            (frameOf t j).result.endCause = .requestEnd ∧
            grantOf t k = grantEnded (recordOf s k).minRest false (grantOf s k)) ∧
          ((grantOf s k).state = .waiting → (grantOf t k).state = .idle) ∧
          ((grantOf s k).state = .resting → grantOf t k = grantOf s k)

/-! ## The scan -/

/-- R5, R6, R118: a scan start takes the five settings from the image as it stands and the configured
slots, and changes nothing else; with no configured slot the scan completes at once. -/
def Obligations.ScanStartBeginsReads : Prop :=
  ∀ s : State, isRunning s = true → s.scanner.scan = none →
    ((∃ n : ProbeId, (s.scanner.probes[n]).layer ≠ none) →
      exec .scanStart s = .next (s.setScanner { s.scanner with
        interval := (imageByte s.store.image 0x020).toNat
        scan := some
          { toRead := (List.finRange 8).filter fun n => (s.scanner.probes[n]).layer.isSome
            results := []
            holdLimit := (imageByte s.store.image 0x021).toNat
            inversionMargin := (imageWord s.store.image 0x022).toNat
            tLimit := (imageWord s.store.image 0x02A).toInt
            hysteresis := (imageWord s.store.image 0x02C).toNat } })) ∧
    ((∀ n : ProbeId, (s.scanner.probes[n]).layer = none) → s.model.scanCompleted = true →
      ∃ t, exec .scanStart s = .next t ∧ t.scanner.scan = none ∧
        t.scanner.probes = s.scanner.probes ∧
        t.model = { layers := s.model.layers, state := .none, scanCompleted := true,
                    inversion := false } ∧
        t.planner = s.planner ∧ t.safety = s.safety ∧ settingsKept s t ∧ poolKept s t ∧
        ∀ k, (grantOf t k).state ≠ .running ∧
          ((grantOf s k).state ≠ .running → grantOf t k = grantOf s k))

/-- R1, R2, R6: a read that is not the scan's last keeps its result within the scan and the next read
begins; with no read in progress the bytes are disregarded, and, by the model's choice, so is the end of a
window that is not open (log entry 3). -/
def Obligations.ReadResultKeptInScan : Prop :=
  (∀ (s : State) (scan : Scan) (n m : ProbeId) (rest : List ProbeId) (c : Instr) (r : ReadResult),
    s.scanner.scan = some scan → scan.toRead = n :: m :: rest → endsRead s n c r →
      exec c s = .next (s.setScanner { s.scanner with
        scan := some { scan with toRead := m :: rest, results := scan.results ++ [(n, r)] } })) ∧
  ∀ (s : State) (low high check : Byte),
    (∀ scan, s.scanner.scan = some scan → scan.toRead = []) →
      exec (.probeRead low high check) s = .next s ∧ exec .answerWindowClose s = .next s

/-- R8, R9: the scan's last read updates every slot the scan read by the slot's state and the result of
its read, and keeps every other slot. -/
def Obligations.CompletionUpdatesProbeSlots : Prop :=
  ∀ (s : State) (scan : Scan) (n : ProbeId) (c : Instr) (r : ReadResult),
    s.scanner.scan = some scan → scan.toRead = [n] → endsRead s n c r →
      ∃ t, exec c s = .next t ∧ ∀ m : ProbeId,
        let before := s.scanner.probes[m]
        let after := t.scanner.probes[m]
        let read := (scan.results ++ [(n, r)]).find? fun x => x.1 == m
        (read = none → after = before) ∧
        (∀ v, read = some (m, .good v) → before.state ≠ .unused →
          after = { before with state := .ok, holdCount := 0, lastValid := v }) ∧
        (read = some (m, .fault) →
          (before.state = .unread → after = { before with state := .failed, holdCount := 0 }) ∧
          (before.state = .ok ∨ before.state = .holding →
            after = { before with
              state := if scan.holdLimit < before.holdCount + 1 then .failed else .holding
              holdCount := before.holdCount + 1 }) ∧
          (before.state = .failed → after = before))

/-- R7, R10, R12, R13: where no two configured slots share a layer, the scan's last read sets the model
from the valid probes in ascending layer order: the model state from their number, the layers, the
inversion flag, and the mark that a scan has completed; the first completion since the reset as well,
outside SETUP. R17, R49, R50, R81: a later completion leaves every source that is not RUNNING, and every
frame not held for a RUNNING source, as it was; in NONE it ends every grant with cause MODEL-NONE; one in
FULL or SINGLE ends the grants of the sources whose coil-top layer has reached their target, their HEAT
requests DONE, and no other; one that makes overtemperature ACTIVE ends every grant, with cause OVERTEMP or,
at a source that has reached its target, with either cause. -/
def Obligations.CompletionFormsModel : Prop :=
  ∀ (s : State) (scan : Scan) (n : ProbeId) (c : Instr) (r : ReadResult),
    s.scanner.scan = some scan → scan.toRead = [n] → endsRead s n c r →
    (s.model.scanCompleted = true ∨ inSetup s = false) →
    (∀ a b : ProbeId, (s.scanner.probes[a]).layer = (s.scanner.probes[b]).layer →
      (s.scanner.probes[a]).layer ≠ none → a = b) →
      ∃ (t : State) (valid : List (LayerId × Int)), exec c s = .next t ∧
        valid.Pairwise (fun x y => x.1 < y.1) ∧
        (∀ i v, (i, v) ∈ valid ↔ ∃ m : ProbeId, (t.scanner.probes[m]).layer = some i ∧
          ((t.scanner.probes[m]).state = .ok ∨ (t.scanner.probes[m]).state = .holding) ∧
          (t.scanner.probes[m]).lastValid = v) ∧
        t.model.scanCompleted = true ∧
        t.model.state =
          (if 2 ≤ valid.length then .full else if valid.length = 1 then .single else .none) ∧
        t.model.layers = formedLayers s.model.layers valid ∧
        (t.model.inversion = true ↔ ∃ below x y above, valid = below ++ x :: y :: above ∧
          (scan.inversionMargin : Int) < x.2 - y.2) ∧
        t.scanner.scan = none ∧ t.scanner.interval = s.scanner.interval ∧
        (s.model.scanCompleted = true →
          t.planner = s.planner ∧ settingsKept s t ∧
          (∀ k, (grantOf s k).state ≠ .running → grantOf t k = grantOf s k) ∧
          (∀ i, (∀ k, heldSlot s i = some k → (grantOf s k).state ≠ .running) →
            frameOf t i = frameOf s i) ∧
          (t.model.state = .none → (∀ k, (grantOf t k).state ≠ .running) ∧
            ∀ k i, (grantOf s k).state = .running → holdsAlone s i k →
              endedHolding .modelNone s t i k) ∧
          (t.model.state ≠ .none → ∀ k, (grantOf s k).state = .running →
            let reached := (grantOf s k).target ≤ t.model.layers[(recordOf s k).coilTop]
            let rises := s.safety.overtemp = false ∧ t.safety.overtemp = true
            (¬rises → ¬reached → grantOf t k = grantOf s k ∧
              ∀ i, heldSlot s i = some k → frameOf t i = frameOf s i) ∧
            (¬rises → reached → heldFor s k = none →
              grantOf t k = grantEnded (recordOf s k).minRest false (grantOf s k)) ∧
            ∀ i, holdsAlone s i k →
              (¬rises → reached → endedAtTarget s t i k) ∧
              (rises → ¬reached → endedHolding .overtemp s t i k) ∧
              (rises → reached →
                endedAtTarget s t i k ∨ endedHolding .overtemp s t i k)))

/-- R11, R12: the layers from the valid probes in ascending order of layer position: a probe's own layer
takes its reading, those below the lowest and above the highest take theirs, one between two neighbours
is interpolated with the division rounded toward zero; with no valid probe the layers stand. -/
def Obligations.LayersInterpolate : Prop :=
  ∀ (old : Vector Int 12) (valid : List (LayerId × Int)),
    valid.Pairwise (fun x y => x.1 < y.1) →
      (valid = [] → formedLayers old valid = old) ∧
      (∀ x, x ∈ valid → (formedLayers old valid)[x.1] = x.2) ∧
      (∀ lowest rest, valid = lowest :: rest → ∀ i : LayerId, i < lowest.1 →
        (formedLayers old valid)[i] = lowest.2) ∧
      (∀ below highest, valid = below ++ [highest] → ∀ i : LayerId, highest.1 < i →
        (formedLayers old valid)[i] = highest.2) ∧
      ∀ below x y above, valid = below ++ x :: y :: above → ∀ i : LayerId, x.1 < i → i < y.1 →
        (formedLayers old valid)[i] =
          x.2 + ((y.2 - x.2) * ((i.val : Int) - x.1.val)).tdiv ((y.1.val : Int) - x.1.val)

/-- R89, R95: the first scan completion since the reset starts the timer with period number 0 and, outside
SETUP, the first full plan, with what R95 to R103 say. A scan with no configured slot leaves the model in
NONE with its layers (R10, R12, R13). -/
def Obligations.FirstCompletionStartsTimer : Prop :=
  ∀ (s : State) (c : Instr), s.model.scanCompleted = false →
    ((∃ scan n r, s.scanner.scan = some scan ∧ scan.toRead = [n] ∧ endsRead s n c r) ∨
      (c = .scanStart ∧ isRunning s = true ∧ s.scanner.scan = none ∧
        ∀ n : ProbeId, (s.scanner.probes[n]).layer = none)) →
      ∃ t, exec c s = .next t ∧ t.model.scanCompleted = true ∧ t.planner.timerRunning = true ∧
        t.planner.periodLength = s.planner.periodLength ∧
        t.planner.secondsRemaining = s.planner.periodLength ∧
        (inSetup s = false → t.planner.period = 0 ∧ t.planner.lateMark = false ∧
          (∃ plan, t.planner.state = .planningFull plan ∧
            (RanksPermuted s → imageInRange s.store.image → planHolds .full t plan)) ∧
          (c = .scanStart → t.model.state = .none ∧ t.model.layers = s.model.layers ∧
            t.model.inversion = false) ∧
          t.planner.snapshot.layers = t.model.layers ∧
          t.planner.snapshot.model = t.model.state ∧
          t.planner.snapshot.cycle = t.cycle.state)

/-- R119, R120: a scan completion in FULL or SINGLE judges overtemperature on the completed layers with
the settings taken at the scan's start; one in NONE leaves it; and no source runs once it is ACTIVE after
having been CLEAR. -/
def Obligations.CompletionJudgesOvertemperature : Prop :=
  ∀ (s : State) (scan : Scan) (n : ProbeId) (c : Instr) (r : ReadResult),
    s.scanner.scan = some scan → scan.toRead = [n] → endsRead s n c r →
    (s.model.scanCompleted = true ∨ inSetup s = false) →
      ∃ t, exec c s = .next t ∧
        (t.model.state = .none → t.safety = s.safety) ∧
        (t.model.state ≠ .none →
          t.safety.x0 = s.safety.x0 ∧ t.safety.x1 = s.safety.x1 ∧
          (s.safety.overtemp = false →
            (t.safety.overtemp = true ↔ ∃ i : LayerId, scan.tLimit ≤ t.model.layers[i])) ∧
          (s.safety.overtemp = true →
            (t.safety.overtemp = false ↔
              ∀ i : LayerId, t.model.layers[i] < scan.tLimit - (scan.hysteresis : Int)))) ∧
        (s.safety.overtemp = false → t.safety.overtemp = true →
          ∀ k, (grantOf t k).state ≠ .running)

/-! ## The energy figures -/

/-- R33: the reservation line is the smallest number from 0 to 12 for which the running saturating sum of
room below it is at least the reservation, and 12 where all twelve layers fall short. -/
def Obligations.ReservationLineIsSmallest : Prop :=
  ∀ (img : Image) (layers : Vector Int 12) (reservation : Nat),
    let roomUnder (line : Nat) : Nat := min 65535 (((List.finRange 12).filter fun i =>
      i.val < line).map fun i =>
        (imageByte img i.val).toNat * (tMax img - layers[i]).toNat * 1163 / 16000).sum
    reservationLine img layers reservation ≤ 12 ∧
    (∀ line, line < reservationLine img layers reservation → roomUnder line < reservation) ∧
    (reservationLine img layers reservation < 12 →
      reservation ≤ roomUnder (reservationLine img layers reservation)) ∧
    (reservation = 0 → reservationLine img layers reservation = 0)

/-- R35: the power need is ceil(D′ × 3600 / Rs), at most 65535; it is 0 exactly when D′ is 0, D′ itself
for Rs = 3600, and at most D′ for a longer recovery time. -/
def Obligations.PowerNeedIsCeiling : Prop :=
  ∀ deficit recovery : Nat, deficit ≤ 65535 → 60 ≤ recovery →
    powerNeed deficit recovery = min 65535 ((deficit * 3600 + recovery - 1) / recovery) ∧
    (powerNeed deficit recovery = 0 ↔ deficit = 0) ∧
    (recovery = 3600 → powerNeed deficit recovery = deficit) ∧
    (3600 ≤ recovery → powerNeed deficit recovery ≤ deficit) ∧
    (powerNeed deficit recovery < 65535 →
      deficit * 3600 ≤ powerNeed deficit recovery * recovery ∧
      (0 < deficit → (powerNeed deficit recovery - 1) * recovery < deficit * 3600))

/-- R28 to R30, R32 to R36: the figures of one formation, each from those above it. -/
def Obligations.FormationFigures : Prop :=
  ∀ inp : FormationInputs,
    let f := (formFigures inp).published
    let img := inp.settings
    let short := min 65535 (((List.finRange 12).filter fun i =>
      (imageByte img 0x030).toNat ≤ i.val).map fun i =>
        (imageByte img i.val).toNat * (tDis img - inp.layers[i]).toNat * 1163 / 16000).sum
    let usable := min 65535 (((List.finRange 12).filter fun i =>
      (imageByte img 0x030).toNat ≤ i.val).map fun i =>
        (imageByte img i.val).toNat * (inp.layers[i] - tUse img).toNat * 1163 / 16000).sum
    f.comfort = min 65535 (comfortBase img + inp.comfortAmounts.sum) ∧
    f.deficit = f.comfort - usable ∧
    (f.yieldFlag = true ↔ yieldThreshold img ≤ f.deficit) ∧
    f.reservation = min 65535 inp.reserveAmounts.sum ∧
    f.line = reservationLine img inp.layers f.reservation ∧
    (f.setAside = true ↔ f.yieldFlag = true ∨ inp.cycle = .due ∨ inp.model = .single) ∧
    (formFigures inp).lineInUse = (if f.setAside then 0 else f.line) ∧
    f.need = powerNeed (if inp.cycle = .due then max f.deficit short else f.deficit)
      (recoveryTime img)

/-! ## The charge period -/

/-- R88, R92, R93, R95 to R103, R175: a second that passes with more than one remaining counts down and changes
nothing else, and the timer stands still while it is not running and before the start-up load
completes. The second at 1 is a period start, which raises the period number, reloads the timer, takes
the snapshot and raises PERIOD-START; outside SETUP a full plan begins, with its figures, grants, contested
marks and revocations as the rules form them, in SETUP none does, and a holder that falls silent at it ends
setup with a second period start and its full plan. That a tick or a period start which cannot arise
changes nothing, and that the loss follows the whole period start, are the model's choice and reading
(log entries 3 and 13). -/
def Obligations.ChargePeriodAdvances : Prop :=
  (∀ s : State,
    (isRunning s = true ∧ s.planner.timerRunning = true ∧ 1 < s.planner.secondsRemaining →
      exec .secondsRemainingTick s = .next (s.setPlanner
        { s.planner with secondsRemaining := s.planner.secondsRemaining - 1 })) ∧
    (s.planner.timerRunning = false ∨ isRunning s = false →
      exec .secondsRemainingTick s = .next s ∧ exec .periodStart s = .next s)) ∧
  ∀ s : State, isRunning s = true → s.planner.timerRunning = true →
    s.planner.secondsRemaining = 1 → s.model.scanCompleted = true →
      ∃ t, exec .periodStart s = .next t ∧ t.planner.timerRunning = true ∧
        t.planner.secondsRemaining = s.planner.periodLength ∧
        t.planner.periodLength = s.planner.periodLength ∧
        t.planner.lateThreshold = s.planner.lateThreshold ∧
        t.planner.published = s.planner.published ∧ t.planner.lateMark = false ∧
        t.planner.snapshot.cycle = t.cycle.state ∧ t.part = s.part ∧ t.safety = s.safety ∧
        t.table.records = s.table.records ∧ t.pool.shares = s.pool.shares ∧
        t.pool.freeLists = s.pool.freeLists ∧ t.pool.postLists = s.pool.postLists ∧
        t.scanner.probes = s.scanner.probes ∧ t.alerts.modes = s.alerts.modes ∧
        (holderFallsSilent s = false → t.scanner = s.scanner ∧ t.store = s.store) ∧
        t.wires = s.wires ∧
        (holderFallsSilent s = false →
          ∀ q, subscribed s q .periodStart = true → .periodStart ∈ pendingOf t q) ∧
        (inSetup s = false → t.planner.period = s.planner.period + 1 ∧
          (∃ plan, t.planner.state = .planningFull plan ∧
            (RanksPermuted s → imageInRange s.store.image → planHolds .full t plan)) ∧
          t.model = s.model ∧
          t.planner.snapshot.layers = s.model.layers ∧
          t.planner.snapshot.model = s.model.state) ∧
        (inSetup s = true → holderFallsSilent s = false →
          t.planner.period = s.planner.period + 1 ∧ t.planner.state = s.planner.state ∧
          t.model = s.model ∧ t.planner.snapshot.layers = s.model.layers ∧
          t.planner.snapshot.model = s.model.state) ∧
        (holderFallsSilent s = true → t.planner.period = s.planner.period + 2 ∧
          (∃ plan, t.planner.state = .planningFull plan ∧
            ((∃ n : ProbeId, (s.scanner.probes[n]).layer ≠ none) → RanksPermuted s →
              ImagesInRange s → planHolds .full t plan)) ∧ t.store.setup = none ∧
          ∀ setup, s.store.setup = some setup → t.store.image = setup.entrySnapshot)

/-- R51, R52, R57, R82: at a period start the run count of a RUNNING source and the periods-run field of its
request rise by one and stop at 65535, and it keeps the rest of its record unless its port falls silent or
its request expires; an expiry ends its grant as of a source with no request held. A WAITING source stays as
it is, and goes to IDLE where its request expires. The rest count of a RESTING one falls by one and lets it
leave rest at 0, to WAITING with a request still held for it and to IDLE without, also where its HEAT
request expires at this period start; and an IDLE or UNUSED slot stays as it is. -/
def Obligations.PeriodStartCountsSources : Prop :=
  ∀ s : State, isRunning s = true → s.planner.timerRunning = true →
    s.planner.secondsRemaining = 1 → holderFallsSilent s = false →
      ∃ t, exec .periodStart s = .next t ∧
        (∀ i k, heldSlot s i = some k → (frameOf t i).result.periodsRun =
          if (grantOf s k).state = .running then min 65535 ((frameOf s i).result.periodsRun + 1)
          else (frameOf s i).result.periodsRun) ∧
        ∀ k : SlotId,
        let outlasts : Prop := ∀ i, heldSlot s i = some k → ¬lapses s i
        recordOf t k = recordOf s k ∧ (grantOf t k).rank = (grantOf s k).rank ∧
        ((grantOf s k).state = .running →
          (grantOf t k).runCount = min 65535 ((grantOf s k).runCount + 1) ∧
          (outlasts → ¬silenced s t k → grantOf t k = countedRun (grantOf s k)) ∧
          ∀ i, heldSlot s i = some k → lapses s i →
            grantOf t k = grantEnded (recordOf s k).minRest false (countedRun (grantOf s k))) ∧
        ((grantOf s k).state = .waiting →
          (outlasts → grantOf t k = grantOf s k) ∧
          ∀ i, heldSlot s i = some k → lapses s i →
            grantOf t k = { grantOf s k with state := .idle }) ∧
        ((grantOf s k).state = .resting → 1 < (grantOf s k).restCount →
          grantOf t k = { grantOf s k with restCount := (grantOf s k).restCount - 1 }) ∧
        ((grantOf s k).state = .resting → (grantOf s k).restCount ≤ 1 →
          (heldFor s k = none → grantOf t k = { grantOf s k with state := .idle, restCount := 0 }) ∧
          (∀ i, heldSlot s i = some k → outlasts →
            grantOf t k = { grantOf s k with state := .waiting, restCount := 0 }) ∧
          (∀ i, heldSlot s i = some k → lapses s i →
            grantOf t k = { grantOf s k with state := .idle, restCount := 0 })) ∧
        ((grantOf s k).state = .idle ∨ (grantOf s k).state = .unused →
          grantOf t k = grantOf s k)

/-- R51, R159, R160: at a period start each ACTIVE port counts, unless the timeout is 0, and is SILENT once
its count is at least the timeout; a SILENT port keeps its count; and no source of a port that becomes
SILENT runs on: its grant ends with cause PORT-SILENT, and its request stays held unless it expires at this
period start. That a timeout of 1 silences at the first period start is the model's reading of R161 (log
entry 28). -/
def Obligations.PeriodStartCountsSilence : Prop :=
  ∀ s : State, isRunning s = true → s.planner.timerRunning = true →
    s.planner.secondsRemaining = 1 → holderFallsSilent s = false →
      ∃ t, exec .periodStart s = .next t ∧ t.ports.timeout = s.ports.timeout ∧ ∀ p : PortId,
        ((portOf s p).active = false ∨ s.ports.timeout = 0 → portOf t p = portOf s p) ∧
        ((portOf s p).active = true → 1 ≤ s.ports.timeout →
          portOf t p = { portOf s p with
            silence := min 255 ((portOf s p).silence + 1)
            active := decide (min 255 ((portOf s p).silence + 1) < s.ports.timeout) }) ∧
        ((portOf s p).active = true → (portOf t p).active = false →
          (∀ k, (recordOf s k).owner = some p → (grantOf t k).state ≠ .running ∧
            ((grantOf s k).state = .running → (∀ i, heldSlot s i = some k → ¬lapses s i) →
              grantOf t k =
                grantEnded (recordOf s k).minRest (heldFor s k).isSome (countedRun (grantOf s k)) ∧
              ∀ i, holdsAlone s i k → isHeld t i = true ∧
                (frameOf t i).request = (frameOf s i).request ∧
                (frameOf t i).result =
                  { countedResult (frameOf s i).result with endCause := .portSilent })) ∧
          ∀ q, subscribed s q .portSilent = true → .portSilent ∈ pendingOf t q)

/-- R130, R131: the Disinfection Cycle's evaluation at a period start, in its four stages.
That the hold count stops at 255 is the model's reading (log entry 23, DEDUCED). -/
def Obligations.PeriodStartEvaluatesCycle : Prop :=
  ∀ s : State, isRunning s = true → s.planner.timerRunning = true →
    s.planner.secondsRemaining = 1 → holderFallsSilent s = false →
      ∃ t, exec .periodStart s = .next t ∧
        ∀ holdNow : Nat,
          ((s.model.state ≠ .none ∧
              ∀ i : LayerId, s.cycle.floor ≤ i.val → s.cycle.tDis ≤ s.model.layers[i]) →
            holdNow = min 255 (s.cycle.holdCount + 1)) →
          (¬(s.model.state ≠ .none ∧
              ∀ i : LayerId, s.cycle.floor ≤ i.val → s.cycle.tDis ≤ s.model.layers[i]) →
            holdNow = 0) →
          (s.cycle.state = .off → t.cycle = s.cycle) ∧
          (s.cycle.state ≠ .off → s.cycle.hold ≤ holdNow →
            t.cycle = { s.cycle with state := .counting, sinceSuccess := 0, sinceDue := 0,
                                     holdCount := 0 }) ∧
          (s.cycle.state = .counting → holdNow < s.cycle.hold →
            t.cycle = { s.cycle with
              holdCount := holdNow
              sinceSuccess := min 65535 (s.cycle.sinceSuccess + 1)
              state := if s.cycle.interval ≤ min 65535 (s.cycle.sinceSuccess + 1) then .due
                       else .counting
              sinceDue := if s.cycle.interval ≤ min 65535 (s.cycle.sinceSuccess + 1) then 0
                          else s.cycle.sinceDue }) ∧
          (s.cycle.state = .due → holdNow < s.cycle.hold →
            t.cycle = { s.cycle with
              holdCount := holdNow
              sinceDue := if s.cycle.deadline ≤ min 65535 (s.cycle.sinceDue + 1) then 0
                          else min 65535 (s.cycle.sinceDue + 1) } ∧
            (s.cycle.deadline ≤ min 65535 (s.cycle.sinceDue + 1) →
              ∀ q, subscribed s q .disinfectFailed = true → .disinfectFailed ∈ pendingOf t q))

/-- R51, R79, R82: at a period start every held request ages by one; a HEAT request with a span above 0
whose age has reached it ends EXPIRED, a RESERVE or COMFORT request DONE, each reported with the new period
number; any other held request stays HELD. The grant of a RUNNING source whose request expires has ended
with cause REQUEST-END before the report, or with PORT-SILENT where its port falls silent at the same period
start and is taken first (log entry 7). -/
def Obligations.PeriodStartExpiresRequests : Prop :=
  ∀ s : State, isRunning s = true → s.planner.timerRunning = true →
    s.planner.secondsRemaining = 1 → holderFallsSilent s = false →
      ∃ t, exec .periodStart s = .next t ∧ ∀ (i : FrameId) (age : Nat),
        (frameOf s i).state = .held age →
          let r := (frameOf s i).request
          let due := r.span.toNat ≤ min 65535 (age + 1)
          (frameOf t i).request = r ∧
          (r.kind = 1 → r.span ≠ 0 → due →
            (frameOf t i).state = .reported ∧ (frameOf t i).result.outcome = .expired ∧
            (frameOf t i).result.endPeriod = s.planner.period + 1 ∧
            ∀ k, holdsAlone s i k →
              let expired (result : Result) : Result :=
                { result with outcome := .expired, endPeriod := s.planner.period + 1 }
              ((grantOf s k).state ≠ .running →
                (frameOf t i).result = expired (frameOf s i).result) ∧
              ((grantOf s k).state = .running →
                ∃ cause, (frameOf t i).result =
                    expired { countedResult (frameOf s i).result with endCause := cause } ∧
                  (cause = .requestEnd ∨ (cause = .portSilent ∧ silenced s t k)))) ∧
          (r.kind = 3 ∨ r.kind = 4 → due →
            (frameOf t i).state = .reported ∧ (frameOf t i).result =
              { (frameOf s i).result with
                outcome := .done, endPeriod := s.planner.period + 1 }) ∧
          (r.kind = 2 ∨ (r.kind = 1 ∧ r.span = 0) ∨ ¬due →
            (frameOf t i).state = .held (min 65535 (age + 1)) ∧
            (frameOf t i).result.outcome = (frameOf s i).result.outcome)

/-! ## Plan completions -/

/-- R104, R106, R108, R46, R47, R48, R56, R57: a full plan's completion publishes its figures and leaves
PLANNING; each entry whose request is still HELD, whose source may run and is in the state the plan saw
begins or continues its grant, every other entry is dropped; a source that the plan lists for revocation and
that still runs ends its grant with cause PLAN; the turn ranks rotate for the contested winners in grant
order; and with the mark set and enough seconds remaining a late plan begins. That the command does nothing
with no plan in flight is the model's choice (log entry 3). -/
def Obligations.PlanCompletionApplies : Prop :=
  (∀ s : State, (∀ plan, s.planner.state ≠ .planningFull plan) →
    exec .planCompletion s = .next s) ∧
  ∀ (s : State) (plan : Plan), s.planner.state = .planningFull plan →
    ∃ t, exec .planCompletion s = .next t ∧ t.planner.published = plan.figures ∧
      t.planner.lateMark = false ∧
      (s.planner.lateMark = false ∨ s.planner.secondsRemaining < s.planner.lateThreshold →
        t.planner.state = .idle) ∧
      (s.planner.lateMark = true → s.planner.lateThreshold ≤ s.planner.secondsRemaining →
        ∃ next, t.planner.state = .planningLate next ∧
          (RanksPermuted s → imageInRange s.store.image → planHolds .late t next)) ∧
      t.planner.period = s.planner.period ∧ t.planner.timerRunning = s.planner.timerRunning ∧
      t.planner.secondsRemaining = s.planner.secondsRemaining ∧
      t.planner.snapshot = s.planner.snapshot ∧ t.scanner = s.scanner ∧ t.model = s.model ∧
      t.safety = s.safety ∧ settingsKept s t ∧ poolKept s t ∧
      (PlanFormed plan → planApplied plan s t)

/-- R110, R104: a late plan that completes with fewer seconds remaining than the threshold applies nothing;
otherwise it is applied and publishes as a full plan does, and with the mark set the next late plan begins.
That the command does nothing with no plan in flight is the model's choice (log entry 3). -/
def Obligations.LatePlanCompletionApplies : Prop :=
  (∀ s : State, (∀ plan, s.planner.state ≠ .planningLate plan) →
    exec .latePlanCompletion s = .next s) ∧
  ∀ (s : State) (plan : Plan), s.planner.state = .planningLate plan →
    (s.planner.secondsRemaining < s.planner.lateThreshold →
      exec .latePlanCompletion s = .next (s.setPlanner
        { s.planner with state := .idle, lateMark := false })) ∧
    (s.planner.lateThreshold ≤ s.planner.secondsRemaining →
      ∃ t, exec .latePlanCompletion s = .next t ∧ t.planner.published = plan.figures ∧
        t.planner.lateMark = false ∧ (s.planner.lateMark = false → t.planner.state = .idle) ∧
        (s.planner.lateMark = true → ∃ next, t.planner.state = .planningLate next ∧
          (RanksPermuted s → imageInRange s.store.image → planHolds .late t next)) ∧
        t.planner.period = s.planner.period ∧ t.planner.snapshot = s.planner.snapshot ∧
        t.scanner = s.scanner ∧ t.model = s.model ∧ t.safety = s.safety ∧
        settingsKept s t ∧ poolKept s t ∧ (PlanFormed plan → planApplied plan s t))

/-- R56: one rotation: the winner's rank becomes 0, every lower rank rises by one, and every other rank
and every other field of the grant records stands. -/
def Obligations.RotationMovesLowerRanks : Prop :=
  ∀ (s : State) (winner k : SlotId),
    grantOf (rotateRanks s winner) k = { grantOf s k with
      rank := if k = winner then 0
              else if (grantOf s k).rank < (grantOf s winner).rank then (grantOf s k).rank + 1
              else (grantOf s k).rank } ∧
    (rotateRanks s winner).table.records = s.table.records ∧
    (rotateRanks s winner).pool = s.pool

/-! ## The input lines -/

/-- R123: a pin change begins a settle, cancels one, or is taken at once, and a settle that runs out
makes its target the settled level; until the start-up load completes the pin alone changes (R124). That a
pin driven to its own level and an expiry without a settle change nothing is the model's choice (log
entry 3). -/
def Obligations.InputLinesSettle : Prop :=
  ∀ (l : Line) (level : Level) (s : State),
    (level = (lineOf s l).pin → exec (.inputPinChange l level) s = .next s) ∧
    (level ≠ (lineOf s l).pin →
      (isRunning s = false →
        exec (.inputPinChange l level) s = .next (setLine s l { lineOf s l with pin := level })) ∧
      (isRunning s = true → level = (lineOf s l).settled →
        exec (.inputPinChange l level) s =
          .next (setLine s l { lineOf s l with pin := level, settling := none })) ∧
      (isRunning s = true → level ≠ (lineOf s l).settled → (lineOf s l).settling = none →
        1 ≤ (lineOf s l).settleTime →
          exec (.inputPinChange l level) s = .next (setLine s l { lineOf s l with
            pin := level
            settling := some { target := level, time := (lineOf s l).settleTime } })) ∧
      (isRunning s = true → level ≠ (lineOf s l).settled → (lineOf s l).settling = none →
        (lineOf s l).settleTime = 0 →
          ∃ t, exec (.inputPinChange l level) s = .next t ∧
            lineOf t l = { lineOf s l with pin := level, settled := level } ∧
            (∀ m, m ≠ l → lineOf t m = lineOf s m) ∧
            (lineActive t l = false → t.table = s.table) ∧
            t.safety.overtemp = s.safety.overtemp ∧ t.scanner = s.scanner ∧
            t.model = s.model ∧ t.planner = s.planner ∧ settingsKept s t ∧ poolKept s t)) ∧
    ((lineOf s l).settling = none → exec (.settleExpiry l) s = .next s) ∧
    ∀ x, (lineOf s l).settling = some x →
      ∃ t, exec (.settleExpiry l) s = .next t ∧
        lineOf t l = { lineOf s l with settled := x.target, settling := none } ∧
        (∀ m, m ≠ l → lineOf t m = lineOf s m) ∧ t.safety.overtemp = s.safety.overtemp ∧
        (lineActive t l = false → t.table = s.table) ∧
        t.scanner = s.scanner ∧ t.model = s.model ∧ t.planner = s.planner ∧
        settingsKept s t ∧ poolKept s t

/-- R47, R123, R126, R127: X1 becoming active, at the end of its settle or, with a settle time of 0, at the
pin change, ends every grant with cause SERVICE-STOP; X0 becoming active ends
those of the PAID sources with block-obey yes with cause PAID-BLOCK and no other. The cause goes into the
request held for the source. R138, R142, R143: the line's kind occurs at each subscribed port in EDGE mode,
and is pending in LEVEL mode unless it is awaiting clear. -/
def Obligations.LinesEndGrants : Prop :=
  ∀ (l : Line) (c : Instr) (s : State), isRunning s = true → lineActive s l = false →
    takesActiveLevel s l c →
      ∃ t, exec c s = .next t ∧ lineActive t l = true ∧
        t.table.records = s.table.records ∧
        (let kind : AlertKind := match l with | .x0 => .inputX0 | .x1 => .inputX1
         ∀ q, subscribed s q kind = true →
          (modeOf s kind = .edge → kind ∈ pendingOf t q) ∧
          (modeOf s kind = .level → (kind ∈ pendingOf t q ↔ kind ∉ awaitingOf s q))) ∧ ∀ k,
          let hit := l = .x1 ∨
            ((recordOf s k).sourceClass = .paid ∧ blockObey s.store.image k = true)
          ((grantOf s k).state = .running → hit →
            grantOf t k = grantEnded (recordOf s k).minRest (heldFor s k).isSome (grantOf s k) ∧
            ∀ i, heldFor s k = some i → (frameOf t i).state = (frameOf s i).state ∧
              (frameOf t i).result.endCause = (if l = .x1 then .serviceStop else .paidBlock)) ∧
          (¬((grantOf s k).state = .running ∧ hit) → grantOf t k = grantOf s k)

/-! ## Alerts -/

/-- R144: ALERT-TAKE answers the lowest-numbered pending kind and its mode, takes it out of the pending
set, and puts a LEVEL kind among those awaiting clear; an empty set answers NONE, 0xFF and 0. -/
def Obligations.AlertTakeAnswers : Prop :=
  ∀ (p : PortId) (s : State), decodes s p = true →
    (pendingOf s p = [] →
      exec (.alertTake p) s = .next (s.setPorts (replied s p ⟨.noItem, [0xFF, 0]⟩))) ∧
    ∀ k, k ∈ pendingOf s p → (∀ j, j ∈ pendingOf s p → k.number ≤ j.number) →
      ∃ alerts, exec (.alertTake p) s = .next ((s.setPorts (replied s p
          ⟨.ok, [byteOf k.number.val, if modeOf s k = .level then 1 else 0]⟩)).setAlerts alerts) ∧
        alerts.modes = s.alerts.modes ∧ alerts.heldLost = s.alerts.heldLost ∧
        (∀ j, j ∈ alerts.pendingKinds[p] ↔ j ∈ pendingOf s p ∧ j ≠ k) ∧
        (∀ j, j ∈ alerts.awaiting[p] ↔
          j ∈ awaitingOf s p ∨ (j = k ∧ modeOf s k = .level)) ∧
        ∀ q : PortId, q ≠ p →
          alerts.pendingKinds[q] = pendingOf s q ∧ alerts.awaiting[q] = awaitingOf s q

/-- R145: ALERT-DONE refuses a number of 16 or more with BAD-ARGUMENT and a kind that is not awaiting
clear with WRONG-STATE; accepted, the kind leaves the awaiting-clear set and is pending again if the port
is subscribed to it and its condition is true. -/
def Obligations.AlertDoneAnswers : Prop :=
  ∀ (p : PortId) (kind : Byte) (s : State), decodes s p = true →
    (16 ≤ kind.toNat → exec (.alertDone p kind) s = .next (refusedWith s p .badArgument)) ∧
    ∀ k : AlertKind, kind.toNat = k.number.val →
      (k ∉ awaitingOf s p →
        exec (.alertDone p kind) s = .next (refusedWith s p .wrongState)) ∧
      (k ∈ awaitingOf s p →
        ∃ alerts, exec (.alertDone p kind) s =
            .next ((s.setPorts (replied s p ⟨.ok, []⟩)).setAlerts alerts) ∧
          alerts.modes = s.alerts.modes ∧ alerts.heldLost = s.alerts.heldLost ∧
          (∀ j, j ∈ alerts.pendingKinds[p] ↔
            j ∈ pendingOf s p ∨ (j = k ∧ subscribed s p k = true ∧ condition s k = true)) ∧
          (∀ j, j ∈ alerts.awaiting[p] ↔ j ∈ awaitingOf s p ∧ j ≠ k) ∧
          ∀ q : PortId, q ≠ p →
            alerts.pendingKinds[q] = pendingOf s q ∧ alerts.awaiting[q] = awaitingOf s q)

/-! ## Settings -/

/-- R167: SELECT stores an index below 256 and refuses any other; SET-READ answers n image bytes from the
selector onward, the check word as formed at the read, and raises the selector, and refuses n = 0 and a
reach beyond 256. -/
def Obligations.SelectAndSetRead : Prop :=
  ∀ (p : PortId) (index : Word) (n : Byte) (s : State), decodes s p = true →
    let start := (portOf s p).selector
    (index.toNat < 256 →
      exec (.select p index) s = .next (s.setPorts (repliedAt s p index.toNat ⟨.ok, []⟩))) ∧
    (256 ≤ index.toNat →
      exec (.select p index) s = .next (refusedWith s p .badArgument)) ∧
    (n = 0 ∨ 256 < start + n.toNat →
      exec (.setRead p n) s = .next (refusedWith s p .badArgument)) ∧
    (n ≠ 0 → start + n.toNat ≤ 256 →
      exec (.setRead p n) s = .next (s.setPorts (repliedAt s p (start + n.toNat) ⟨.ok,
        (List.range n.toNat).map fun j =>
          if start + j = 254 then byteOf (checkWord s.store.image)
          else if start + j = 255 then byteOf (checkWord s.store.image / 256)
          else imageByte s.store.image (start + j)⟩)))

/-- R168: an accepted SET-WRITE stores each field it reaches, formed from the written and the standing
bytes and clamped, leaves every other field and every unassigned byte, and raises the selector; a count
of 0 or a reach beyond 256 is refused. R142, R146: a kind whose mask bit is cleared leaves the pending set;
one whose bit is set is pending in LEVEL mode as its condition says, and in EDGE mode stays as it is, but
for a held SETTINGS-LOST, which is released and becomes pending. R42, R50, R170: a block-obey written to
yes while X0 is active ends the grant of that source with cause PAID-BLOCK, if it is PAID and RUNNING; every
other grant stands. -/
def Obligations.SetWriteStoresClampedFields : Prop :=
  ∀ (p : PortId) (data : List Byte) (s : State), decodes s p = true →
    let start := (portOf s p).selector
    (data = [] ∨ 256 < start + data.length →
      exec (.setWrite p data) s = .next (refusedWith s p .badArgument)) ∧
    (data ≠ [] → start + data.length ≤ 256 →
      (∀ f, f ∈ fieldTable → f.offset < start + data.length → start < f.offset + fieldWidth f →
        writeStatus s p f.access = .ok) →
      ∃ t, exec (.setWrite p data) s = .next t ∧
        t.ports = repliedAt s p (start + data.length) ⟨.ok, []⟩ ∧
        t.store = { s.store with image := t.store.image } ∧
        (∀ o, o < 256 → fieldAt o = none →
          imageByte t.store.image o = imageByte s.store.image o) ∧
        (∀ f, f ∈ fieldTable →
          fieldValue (imageByte t.store.image) f =
            if f.offset < start + data.length ∧ start < f.offset + fieldWidth f then
              storedValue f.form (fieldValue (fun o =>
                if start ≤ o ∧ o < start + data.length then data.getD (o - start) 0
                else imageByte s.store.image o) f)
            else fieldValue (imageByte s.store.image) f) ∧
        t.part = s.part ∧ t.scanner = s.scanner ∧ t.model = s.model ∧ t.planner = s.planner ∧
        t.safety = s.safety ∧ t.cycle = s.cycle ∧ t.table.records = s.table.records ∧
        t.alerts.modes = s.alerts.modes ∧ t.alerts.awaiting = s.alerts.awaiting ∧
        t.wires = s.wires ∧
        (∀ q j,
          (subscribed t q j = subscribed s q j → (j ∈ pendingOf t q ↔ j ∈ pendingOf s q)) ∧
          (subscribed s q j = true → subscribed t q j = false → j ∉ pendingOf t q) ∧
          (subscribed s q j = false → subscribed t q j = true →
            (modeOf s j = .level →
              (j ∈ pendingOf t q ↔ condition s j = true ∧ j ∉ awaitingOf s q)) ∧
            (modeOf s j = .edge → (j ∈ pendingOf t q ↔
              j ∈ pendingOf s q ∨ (j = .settingsLost ∧ s.alerts.heldLost[q] = true))))) ∧
        (∀ q : PortId, t.alerts.heldLost[q] = (s.alerts.heldLost[q] &&
          !(!subscribed s q .settingsLost && subscribed t q .settingsLost))) ∧
        poolKept s t ∧ ∀ k,
          let obeyOffset := recordOffset k + 9
          let blocked : Prop := (grantOf s k).state = .running ∧
            (recordOf s k).sourceClass = .paid ∧ lineActive s .x0 = true ∧
            start ≤ obeyOffset ∧ obeyOffset < start + data.length ∧
            blockObey t.store.image k = true
          (blocked →
            grantOf t k = grantEnded (recordOf s k).minRest (heldFor s k).isSome (grantOf s k) ∧
            ∀ i, heldFor s k = some i →
              (frameOf t i).result = { (frameOf s i).result with endCause := .paidBlock }) ∧
          (¬blocked → grantOf t k = grantOf s k ∧
            ∀ i, heldFor s k = some i → (frameOf t i).result = (frameOf s i).result))

/-- R169: the first field, in ascending offset order, whose write is not permitted to the sender gives
the status, and the refused command writes no byte; a write whose every field is permitted is accepted. -/
def Obligations.SetWritePermission : Prop :=
  ∀ (p : PortId) (data : List Byte) (s : State),
    decodes s p = true → data ≠ [] → (portOf s p).selector + data.length ≤ 256 →
    let reached := fieldTable.filter fun g =>
      decide (g.offset < (portOf s p).selector + data.length) &&
        decide ((portOf s p).selector < g.offset + fieldWidth g)
    (∀ (permitted after : List Field) (f : Field), reached = permitted ++ f :: after →
      (∀ g, g ∈ permitted → writeStatus s p g.access = .ok) → writeStatus s p f.access ≠ .ok →
        exec (.setWrite p data) s = .next (refusedWith s p (writeStatus s p f.access))) ∧
    ((∀ g, g ∈ reached → writeStatus s p g.access = .ok) →
      ∃ t, exec (.setWrite p data) s = .next t ∧ (portOf t p).response = some ⟨.ok, []⟩)

/-- R176, R177: STORE is refused in SETUP and during a store; accepted, it begins to write a copy of the
live image with its check word. The completion leaves the page as the write left it, records DONE or
FAILED by comparing it with the copy, and raises STORE-DONE or STORE-FAIL. That a completion without a
store in flight changes nothing is the model's choice (log entry 3). -/
def Obligations.StoreWritesPage : Prop :=
  (∀ (p : PortId) (s : State), decodes s p = true →
    (inSetup s = true → exec (.store p) s = .next (refusedWith s p .wrongState)) ∧
    (inSetup s = false → s.store.storing ≠ none →
      exec (.store p) s = .next (refusedWith s p .busy)) ∧
    (inSetup s = false → s.store.storing = none →
      ∃ copy : Image, exec (.store p) s =
          .next ((s.setPorts (replied s p ⟨.ok, []⟩)).setStore
            { s.store with storing := some copy }) ∧
        (∀ o, o < 254 → imageByte copy o = imageByte s.store.image o) ∧
        (imageWord copy 254).toNat =
          65535 - ((List.range 254).map fun o => (imageByte s.store.image o).toNat).sum)) ∧
  ∀ (readBack : Image) (s : State),
    (s.store.storing = none → exec (.storeCompletion readBack) s = .next s) ∧
    ∀ copy, s.store.storing = some copy →
      ∃ alerts, exec (.storeCompletion readBack) s = .next ((s.setStore { s.store with
            page := .holds readBack, storing := none,
            lastStore := if readBack = copy then .done else .failed }).setAlerts alerts) ∧
        alerts.modes = s.alerts.modes ∧ alerts.awaiting = s.alerts.awaiting ∧
        alerts.heldLost = s.alerts.heldLost ∧
        ∀ q : PortId, ∀ j, j ∈ alerts.pendingKinds[q] ↔ j ∈ pendingOf s q ∨
          (j = (if readBack = copy then .storeDone else .storeFail) ∧ subscribed s q j = true)

/-! ## Setup -/

/-- R171: SETUP-ENTER is refused in SETUP and during a store; accepted, the port becomes holder, the
image is the entry snapshot, every grant ends with cause SETUP-ENTER, the planner is SUSPENDED with the
mark cleared, and SETUP-CHANGE is raised. -/
def Obligations.SetupEnterSuspends : Prop :=
  ∀ (p : PortId) (s : State), decodes s p = true →
    (inSetup s = true → exec (.setupEnter p) s = .next (refusedWith s p .wrongState)) ∧
    (inSetup s = false → s.store.storing ≠ none →
      exec (.setupEnter p) s = .next (refusedWith s p .busy)) ∧
    (inSetup s = false → s.store.storing = none →
      ∃ t, exec (.setupEnter p) s = .next t ∧
        t = { s with ports := t.ports, store := t.store, planner := t.planner, table := t.table,
                     pool := t.pool, alerts := t.alerts } ∧
        t.ports = replied s p ⟨.ok, []⟩ ∧
        t.store = { s.store with
          setup := some { holder := p, entrySnapshot := s.store.image } } ∧
        t.planner = { s.planner with state := .suspended, lateMark := false } ∧
        intakeHeldOff t = true ∧
        t.table.records = s.table.records ∧ poolKept s t ∧
        t.alerts.modes = s.alerts.modes ∧ t.alerts.awaiting = s.alerts.awaiting ∧
        t.alerts.heldLost = s.alerts.heldLost ∧
        (∀ k, ((grantOf s k).state = .running →
            grantOf t k = grantEnded (recordOf s k).minRest (heldFor s k).isSome (grantOf s k) ∧
            ∀ i, heldFor s k = some i →
              (frameOf t i).result = { (frameOf s i).result with endCause := .setupEnter }) ∧
          ((grantOf s k).state ≠ .running → grantOf t k = grantOf s k)) ∧
        (∀ i, (∀ k, (grantOf s k).state = .running → heldFor s k ≠ some i) →
          frameOf t i = frameOf s i) ∧
        ∀ q j, j ∈ pendingOf t q ↔
          j ∈ pendingOf s q ∨ (j = .setupChange ∧ subscribed s q j = true))

/-- R173: SETUP-EXIT is refused outside SETUP and from another port than the holder; from the holder, the
first of the seven checks that fails is answered with INVALID and its number, and nothing changes. -/
def Obligations.SetupExitChecks : Prop :=
  ∀ (p : PortId) (s : State), decodes s p = true →
    (s.store.setup = none → exec (.setupExit p) s = .next (refusedWith s p .wrongState)) ∧
    ∀ setup, s.store.setup = some setup →
      (setup.holder ≠ p → exec (.setupExit p) s = .next (refusedWith s p .notHolder)) ∧
      (setup.holder = p → ∀ n, 1 ≤ n → n ≤ 7 → ¬exitCheck s setup n →
        (∀ m, 1 ≤ m → m < n → exitCheck s setup m) →
          exec (.setupExit p) s = .next (s.setPorts (replied s p ⟨.invalid, [byteOf n]⟩)))

/-- R174, R90: an exit that passes the seven checks ends setup: every block holds its copy of the image, a
new scan has begun with the settings of the image (R5), or has completed with no slot to read (R6; that it
completes in the same step is the model's reading, log entry 9), and with the timer running a period start
with its full plan has taken place. R41, R83: a slot taken as a new source or emptied has a fresh grant
record with its turn rank and its held request is reported WITHDRAWN. R52: any other slot keeps its record,
but for what that period start counts or expires. R4: a changed probe slot is set up afresh and an
unchanged one keeps its state. R133: the cycle is adjusted to the new interval; what a period start then makes
of an interval above 0 is not stated here. R147: a kind whose mode changed leaves both sets and is judged
under its new mode. R63: the free lists are rebuilt in ascending index order where the shares change, and
stand where they do not. R161: the silence counts are kept, or start from 0 where the timeout was 0, and the
period start counts on from them. That a change to 0 keeps them is the model's choice (log entry 25); that a
new timeout of 1 silences at that period start and that a slot without an owner before and after the exit
keeps its grant record are its readings (log entries 28 and 19). -/
def Obligations.SetupExitTakesCopies : Prop :=
  ∀ (p : PortId) (setup : Setup) (s : State), decodes s p = true →
    s.store.setup = some setup → setup.holder = p →
    (∀ n, 1 ≤ n → n ≤ 7 → exitCheck s setup n) →
    s.planner.timerRunning = s.model.scanCompleted → SourcesProtected s →
      let img := s.store.image
      let probed : Prop := ∃ n, probeLayer img n ≠ none
      ∃ t, exec (.setupExit p) s = .next t ∧ (portOf t p).response = some ⟨.ok, [0]⟩ ∧
        t.store = { s.store with setup := none } ∧ t.part = s.part ∧ t.wires = s.wires ∧
        t.safety.overtemp = s.safety.overtemp ∧ (∀ q, postList t q = postList s q) ∧
        (∀ k, recordOf t k = copiedRecord img k) ∧
        t.pool.shares = copiedShares img ∧
        (copiedShares img = s.pool.shares → t.pool.freeLists = s.pool.freeLists) ∧
        (copiedShares img ≠ s.pool.shares → ∀ q, freeList t q =
          (List.finRange 48).filter fun f => frameOwner (copiedShares img) f == some q) ∧
        t.planner.periodLength = periodLength img ∧
        t.planner.lateThreshold = lateThreshold img ∧
        t.ports.timeout = silenceTimeout img ∧
        t.alerts.modes = copiedModes img ∧
        t.cycle.interval = disinfectionInterval img ∧
        t.cycle.hold = disinfectionHold img ∧
        t.cycle.deadline = disinfectionDeadline img ∧
        t.cycle.tDis = tDis img ∧ t.cycle.floor = comfortFloor img ∧
        (∀ l, (lineOf t l).activeLevel = linePolarity img l ∧
          (lineOf t l).settleTime = lineSettle img l ∧
          (lineOf t l).settled = (lineOf s l).settled ∧
          (lineOf t l).settling = (lineOf s l).settling) ∧
        (∀ n : ProbeId,
          ((s.scanner.probes[n]).address = probeAddress img n →
            (s.scanner.probes[n]).layer = probeLayer img n →
              t.scanner.probes[n] = s.scanner.probes[n]) ∧
          ((s.scanner.probes[n]).address ≠ probeAddress img n ∨
              (s.scanner.probes[n]).layer ≠ probeLayer img n →
            t.scanner.probes[n] =
              { address := probeAddress img n, layer := probeLayer img n
                state := if probeLayer img n = none then .unused else .unread
                lastValid := 0, holdCount := 0 })) ∧
        (probed → t.scanner.interval = (imageByte img 0x020).toNat ∧
          t.scanner.scan = some
            { toRead := (List.finRange 8).filter fun n => (probeLayer img n).isSome
              results := []
              holdLimit := (imageByte img 0x021).toNat
              inversionMargin := (imageWord img 0x022).toNat
              tLimit := (imageWord img 0x02A).toInt
              hysteresis := (imageWord img 0x02C).toNat }) ∧
        (¬probed → t.scanner.scan = none ∧ t.model.state = .none) ∧
        (s.planner.timerRunning = true → t.planner.period = s.planner.period + 1 ∧
          t.planner.secondsRemaining = periodLength img ∧
          (∀ q, subscribed s q .periodStart = true → .periodStart ∈ pendingOf t q) ∧
          ∃ plan, t.planner.state = .planningFull plan ∧
            (probed → RanksPermuted s → imageInRange img → planHolds .full t plan)) ∧
        (s.planner.timerRunning = false → probed →
          t.planner.state = .idle ∧ t.planner.timerRunning = false) ∧
        (∀ k, (grantOf t k).rank = (grantOf s k).rank ∧
          (slotRenewed s k → grantOf t k = clearedGrant .idle (grantOf s k).rank) ∧
          (slotEmptied s k → grantOf t k = clearedGrant .unused (grantOf s k).rank) ∧
          (¬slotRenewed s k → ¬slotEmptied s k →
            (s.planner.timerRunning = false → probed → grantOf t k = grantOf s k) ∧
            ((grantOf s k).state = .idle ∨ (grantOf s k).state = .unused →
              grantOf t k = grantOf s k) ∧
            (s.planner.timerRunning = true →
              let outlasts : Prop := ∀ i, heldSlot s i = some k → ¬lapses s i
              ((grantOf s k).state = .waiting →
                (outlasts → grantOf t k = grantOf s k) ∧
                ∀ i, heldSlot s i = some k → lapses s i →
                  grantOf t k = { grantOf s k with state := .idle }) ∧
              ((grantOf s k).state = .resting → 1 < (grantOf s k).restCount →
                grantOf t k = { grantOf s k with restCount := (grantOf s k).restCount - 1 }) ∧
              ((grantOf s k).state = .resting → (grantOf s k).restCount ≤ 1 →
                (heldFor s k = none →
                  grantOf t k = { grantOf s k with state := .idle, restCount := 0 }) ∧
                (∀ i, heldSlot s i = some k → outlasts →
                  grantOf t k = { grantOf s k with state := .waiting, restCount := 0 }) ∧
                ∀ i, heldSlot s i = some k → lapses s i →
                  grantOf t k = { grantOf s k with state := .idle, restCount := 0 })))) ∧
        (∀ i k, heldSlot s i = some k → slotRenewed s k ∨ slotEmptied s k →
          (frameOf t i).state = .reported ∧ (frameOf t i).request = (frameOf s i).request ∧
          (frameOf t i).result = { (frameOf s i).result with
            outcome := .withdrawn, endPeriod := s.planner.period } ∧
          ∀ q, ownerOf s i = some q → i ∈ replyQueue t q) ∧
        (s.planner.timerRunning = false → probed → ∀ i, isHeld s i = true →
          (∀ k, heldSlot s i = some k → ¬slotRenewed s k ∧ ¬slotEmptied s k) →
            frameOf t i = frameOf s i) ∧
        (disinfectionInterval img = 0 → t.cycle.state = .off ∧ t.cycle.sinceSuccess = 0 ∧
          t.cycle.sinceDue = 0 ∧ t.cycle.holdCount = 0) ∧
        (s.planner.timerRunning = false → probed → disinfectionInterval img ≠ 0 →
          (s.cycle.interval = 0 → t.cycle.state = .counting ∧ t.cycle.sinceSuccess = 0 ∧
            t.cycle.sinceDue = 0 ∧ t.cycle.holdCount = 0) ∧
          (s.cycle.interval ≠ 0 → t.cycle.state = s.cycle.state ∧
            t.cycle.sinceSuccess = s.cycle.sinceSuccess ∧
            t.cycle.sinceDue = s.cycle.sinceDue ∧ t.cycle.holdCount = s.cycle.holdCount)) ∧
        (∀ q, q ≠ p →
          let base := if s.ports.timeout = 0 ∧ 1 ≤ silenceTimeout img then 0
            else (portOf s q).silence
          (s.planner.timerRunning = false → probed →
            portOf t q = { portOf s q with silence := base }) ∧
          (s.planner.timerRunning = true →
            ((portOf s q).active = false ∨ silenceTimeout img = 0 →
              portOf t q = { portOf s q with silence := base }) ∧
            ((portOf s q).active = true → 1 ≤ silenceTimeout img →
              portOf t q = { portOf s q with
                silence := min 255 (base + 1)
                active := decide (min 255 (base + 1) < silenceTimeout img) }))) ∧
        (∀ q, subscribed s q .setupChange = true → .setupChange ∈ pendingOf t q) ∧
        ∀ q j,
          (j ∈ awaitingOf t q ↔ j ∈ awaitingOf s q ∧ modeOf t j = modeOf s j) ∧
          (modeOf s j = .edge → modeOf t j = .edge → j ∈ pendingOf s q → j ∈ pendingOf t q) ∧
          (levelCapable j = true → modeOf s j = .edge → modeOf t j = .level →
            (j ∈ pendingOf t q ↔ subscribed s q j = true ∧ condition t j = true)) ∧
          (s.planner.timerRunning = false → probed → levelCapable j = true →
            modeOf s j = .level → modeOf t j = .edge → condition s j = true → j ∉ pendingOf t q)

/-- R175, R90: SETUP-ABANDON is refused outside SETUP and from another port than the holder; accepted, the
entry snapshot is the image again, setup is over, no block has taken a copy, a new scan has begun with the
settings of the restored image (R5), or has completed with no slot to read (R6; that it completes in the same
step is the model's reading, log entry 9), and with the timer running a period start with its full plan has
taken place. R146: the masks that the restore changes are settled. -/
def Obligations.SetupAbandonRestores : Prop :=
  ∀ (p : PortId) (s : State), decodes s p = true →
    (s.store.setup = none → exec (.setupAbandon p) s = .next (refusedWith s p .wrongState)) ∧
    ∀ setup, s.store.setup = some setup →
      (setup.holder ≠ p → exec (.setupAbandon p) s = .next (refusedWith s p .notHolder)) ∧
      (setup.holder = p → s.planner.timerRunning = s.model.scanCompleted →
        ∃ t, exec (.setupAbandon p) s = .next t ∧ (portOf t p).response = some ⟨.ok, []⟩ ∧
          t.store = { s.store with image := setup.entrySnapshot, setup := none } ∧
          t.part = s.part ∧ t.wires = s.wires ∧ t.pool.freeLists = s.pool.freeLists ∧
          t.pool.postLists = s.pool.postLists ∧
          t.table.records = s.table.records ∧ t.pool.shares = s.pool.shares ∧
          t.planner.periodLength = s.planner.periodLength ∧
          t.ports.timeout = s.ports.timeout ∧ t.alerts.modes = s.alerts.modes ∧
          t.planner.lateThreshold = s.planner.lateThreshold ∧
          t.cycle.interval = s.cycle.interval ∧ t.cycle.hold = s.cycle.hold ∧
          t.cycle.deadline = s.cycle.deadline ∧ t.cycle.tDis = s.cycle.tDis ∧
          t.cycle.floor = s.cycle.floor ∧
          t.scanner.probes = s.scanner.probes ∧ t.safety = s.safety ∧
          (let img := setup.entrySnapshot
          let probed : Prop := ∃ n : ProbeId, (s.scanner.probes[n]).layer ≠ none
          (probed → t.scanner.interval = (imageByte img 0x020).toNat ∧
            t.scanner.scan = some
              { toRead := (List.finRange 8).filter fun n => (s.scanner.probes[n]).layer.isSome
                results := []
                holdLimit := (imageByte img 0x021).toNat
                inversionMargin := (imageWord img 0x022).toNat
                tLimit := (imageWord img 0x02A).toInt
                hysteresis := (imageWord img 0x02C).toNat }) ∧
          (¬probed → t.scanner.scan = none ∧ t.model.state = .none) ∧
          (s.planner.timerRunning = true → t.planner.period = s.planner.period + 1 ∧
            (∀ q, maskHas img q .periodStart = true → .periodStart ∈ pendingOf t q) ∧
            ∃ plan, t.planner.state = .planningFull plan ∧
              (probed → RanksPermuted s → imageInRange img → planHolds .full t plan)) ∧
          (s.planner.timerRunning = false → probed →
            t.planner.state = .idle ∧ t.planner.timerRunning = false) ∧
          (∀ q, maskHas img q .setupChange = true → .setupChange ∈ pendingOf t q) ∧
          ∀ q,
            awaitingOf t q = awaitingOf s q ∧
            t.alerts.heldLost[q] = (s.alerts.heldLost[q] &&
              !(!subscribed s q .settingsLost && maskHas img q .settingsLost)) ∧
            (subscribed s q .settingsLost = false → maskHas img q .settingsLost = true →
              modeOf s .settingsLost = .edge → s.alerts.heldLost[q] = true →
                .settingsLost ∈ pendingOf t q) ∧
            ∀ j,
              (subscribed s q j = true → maskHas img q j = false → j ∉ pendingOf t q) ∧
              (subscribed s q j = maskHas img q j → modeOf s j = .edge →
                j ∈ pendingOf s q → j ∈ pendingOf t q) ∧
              (subscribed s q j = false → maskHas img q j = true → levelCapable j = true →
                modeOf s j = .level →
                  (j ∈ pendingOf t q ↔ condition t j = true ∧ j ∉ awaitingOf s q))))

/-- R165, R84, R149: PORT-RESET is refused with BUSY while a plan is in flight; accepted, the port's
frames are FREE with their bytes as they were, in index order, and its two other lists empty, none of its
held requests keeps a source RUNNING or WAITING, its alert sets hold the LEVEL kinds that are true, and its
selector is 0; other ports keep their lists, frames and alert sets. -/
def Obligations.PortResetPutsPortInOrder : Prop :=
  ∀ (p : PortId) (s : State), decodes s p = true →
    (planInFlight s = true → exec (.portReset p) s = .next (refusedWith s p .busy)) ∧
    (planInFlight s = false →
      ∃ t, exec (.portReset p) s = .next t ∧ t.ports = repliedAt s p 0 ⟨.ok, []⟩ ∧
        t.store = s.store ∧ t.planner = s.planner ∧ t.part = s.part ∧ t.scanner = s.scanner ∧
        t.model = s.model ∧ t.safety = s.safety ∧ t.cycle = s.cycle ∧
        t.alerts.modes = s.alerts.modes ∧ t.alerts.heldLost = s.alerts.heldLost ∧
        t.table.records = s.table.records ∧ t.pool.shares = s.pool.shares ∧
        t.wires = s.wires ∧
        (∀ i, ownerOf s i = some p → frameOf t i = { frameOf s i with state := .free }) ∧
        (∀ i, ownerOf s i ≠ some p → (frameOf t i).state = (frameOf s i).state ∧
          (frameOf t i).request = (frameOf s i).request) ∧
        freeList t p = ((List.finRange 48).filter fun i => decide (ownerOf s i = some p)) ∧
        postList t p = [] ∧ replyQueue t p = [] ∧
        (∀ i k, ownerOf s i = some p → heldSlot s i = some k →
          (grantOf t k).state ≠ .running ∧ (grantOf t k).state ≠ .waiting ∧
          ((grantOf s k).state = .running → (∀ j, heldSlot s j = some k → ownerOf s j = some p) →
            grantOf t k = grantEnded (recordOf s k).minRest false (grantOf s k)) ∧
          ((grantOf s k).state = .waiting → grantOf t k = { grantOf s k with state := .idle }) ∧
          ((grantOf s k).state = .resting → grantOf t k = grantOf s k)) ∧
        (∀ k, (∀ i, ownerOf s i = some p → heldSlot s i ≠ some k) →
          grantOf t k = grantOf s k) ∧
        awaitingOf t p = [] ∧
        (∀ k, k ∈ pendingOf t p ↔
          modeOf s k = .level ∧ subscribed s p k = true ∧ condition s k = true) ∧
        ∀ q, q ≠ p → freeList t q = freeList s q ∧ postList t q = postList s q ∧
          replyQueue t q = replyQueue s q ∧ pendingOf t q = pendingOf s q ∧
          awaitingOf t q = awaitingOf s q)

/-! ## Resets -/

/-- R179, R180, R187: each reset sets its own flag of the reset cause record, power-on clearing the
others; RESTART is accepted from the setup holder alone and its reset follows at the rise of select, also
where setup has ended meanwhile and another holder's RESTART has been accepted; RSTN and the supply hold the
part in reset until they return. R154, R180: the rise of select puts the reset of a RESTART accepted from the
port into the queue, or the discarding of a command cut before its last argument byte, or nothing; that it
comes by the queue is the model's choice (log entry 17). What holds the part after a reset during another
hold, and a rise of select with no RESTART accepted, follow the model's reading (log entries 3 and
15). -/
def Obligations.ResetsRecordCause : Prop :=
  ∀ s : State,
    (∃ t, exec .powerOnReset s = .next t ∧ t.part.phase = .loading ∧
      t.part.cause = { powerOn := true, resetPin := false, supplyLow := false,
                       restart := false }) ∧
    (s.part.rstnHeld = false → ∃ t, exec .resetPinReset s = .next t ∧
      t.part = { phase := .loading, rstnHeld := true, supplyHeld := s.part.supplyHeld,
                 cause := { s.part.cause with resetPin := true }, restartArmed := noRestart }) ∧
    (s.part.rstnHeld = false → s.part.supplyHeld = false →
      ∃ t, exec .supplyLowReset s = .next t ∧
        t.part = { phase := .loading, rstnHeld := false, supplyHeld := true,
                   cause := { s.part.cause with supplyLow := true }, restartArmed := noRestart }) ∧
    (∀ p, restartArmedAt s p = true → ∃ t, exec .restartReset s = .next t ∧
      t.part.phase = .loading ∧ t.part.cause = { s.part.cause with restart := true } ∧
      ∀ q, restartArmedAt t q = false) ∧
    ((∀ p, restartArmedAt s p = false) → exec .restartReset s = .next s) ∧
    exec .resetPinRelease s = .next (s.setPart { s.part with rstnHeld := false }) ∧
    exec .supplyRecovery s = .next (s.setPart { s.part with supplyHeld := false }) ∧
    (∀ p : PortId, (wireOf s p).select = .low →
      let risen (events : List Instr) : State :=
        { s with wires := s.wires.set p idleWire, pending := s.pending ++ events }
      let cut : Prop := decodes s p = true ∧
        decodeTransaction p (wireOf s p).received = .incomplete
      (restartArmedAt s p = true → selectRises p s = risen [.restartReset]) ∧
      (restartArmedAt s p = false → cut → selectRises p s = risen [.transactionDiscarded p]) ∧
      (restartArmedAt s p = false → ¬cut → selectRises p s = risen [])) ∧
    ∀ p : PortId, decodes s p = true →
      (s.store.setup = none → exec (.restart p) s = .next (refusedWith s p .wrongState)) ∧
      ∀ setup, s.store.setup = some setup →
        (setup.holder ≠ p → exec (.restart p) s = .next (refusedWith s p .notHolder)) ∧
        (setup.holder = p → ∃ t, exec (.restart p) s = .next t ∧
          t = (s.setPorts (replied s p ⟨.ok, []⟩)).setPart
            { s.part with restartArmed := t.part.restartArmed } ∧
          restartArmedAt t p = true ∧ ∀ q, q ≠ p → restartArmedAt t q = restartArmedAt s q)

/-- R21, R58, R86, R116, R136, R137, R142, R151, R158, R181: every kind of reset that takes place leaves each
block at the values its chapter gives, the permit and attention lines low, and the page as it is, or torn
where a store was in flight; a transaction in flight is disregarded up to the rise of its select (R155). The
torn page is the model's form of R177's partly written page (log entry 11). R86 gives FREE and 20 zero bytes
to owned frames alone: that a frame no port owns holds them too is the model's choice (log entry 14), and so
are the factory shares until the load (log entry 2). -/
def Obligations.ResetsReturnBlocks : Prop :=
  ∀ (c : Instr) (s : State),
    c = .powerOnReset ∨ (c = .resetPinReset ∧ s.part.rstnHeld = false) ∨
      (c = .supplyLowReset ∧ s.part.rstnHeld = false ∧ s.part.supplyHeld = false) ∨
      (c = .restartReset ∧ ∃ p, restartArmedAt s p = true) →
      ∃ t, exec c s = .next t ∧ isRunning t = false ∧
        t.scanner.scan = none ∧
        (∀ n : ProbeId, (t.scanner.probes[n]).lastValid = 0 ∧
          (t.scanner.probes[n]).holdCount = 0) ∧
        (∀ i : LayerId, t.model.layers[i] = 0) ∧ t.model.state = .none ∧
        t.model.scanCompleted = false ∧ t.model.inversion = false ∧
        (∀ k, permitLine t k = false ∧ (grantOf t k).power = 0 ∧ (grantOf t k).target = 0 ∧
          (grantOf t k).runCount = 0 ∧ (grantOf t k).restCount = 0 ∧
          (grantOf t k).firstGrant = 0 ∧ (grantOf t k).requestGranted = false ∧
          (grantOf t k).rank = k.val) ∧
        (∀ i, (frameOf t i).state = .free ∧ frameBytes (frameOf t i) = List.replicate 20 0) ∧
        (∀ p, postList t p = [] ∧ replyQueue t p = [] ∧ attentionLine t p = false ∧
          pendingOf t p = [] ∧ awaitingOf t p = [] ∧ t.alerts.heldLost[p] = false ∧
          portOf t p = resetPort) ∧
        t.planner.state = .idle ∧ t.planner.lateMark = false ∧
        t.planner.timerRunning = false ∧ t.planner.period = 0 ∧
        t.planner.secondsRemaining = 0 ∧
        t.planner.snapshot.model = .none ∧ t.planner.snapshot.cycle = .off ∧
        (∀ i : LayerId, t.planner.snapshot.layers[i] = 0) ∧
        t.planner.published = { comfort := 0, deficit := 0, reservation := 0, line := 0,
                                yieldFlag := false, setAside := false, need := 0 } ∧
        t.safety.overtemp = false ∧ (∀ l, (lineOf t l).settling = none) ∧
        t.cycle.sinceSuccess = 0 ∧ t.cycle.sinceDue = 0 ∧ t.cycle.holdCount = 0 ∧
        (∀ p, (wireOf t p).select = (wireOf s p).select ∧ (wireOf t p).received = [] ∧
          ((wireOf t p).disregarded = true ↔ (wireOf s p).select = .low)) ∧
        t.store.setup = none ∧ t.store.storing = none ∧ t.store.lastStore = .noResult ∧
        (s.store.storing = none → t.store.page = s.store.page) ∧
        (s.store.storing ≠ none → t.store.page = .torn)

/-- R124, R178: once nothing holds the part in reset, the start-up load brings in a good page with every
field clamped to its range and every gap 0, or the factory defaults and a SETTINGS-LOST held at every port;
every block takes its copies, each pin's level is the settled level, and the first scan begins. R4: every
probe slot is set up afresh. R5, R118: the scan reads the configured slots in ascending order under the
settings of the image; with no configured probe it completes at once (R6; that it does so within this command
is the model's reading, log entry 9), in NONE, and the first period start follows with its full plan (R89).
A line that the load finds active is alerted at every subscribed port, in either mode (R151). That the
command changes nothing in a part that runs or is held in reset is the model's choice (log
entry 3), and the zero in the two bytes of the check word is the model's form of an image (R166). -/
def Obligations.StartUpLoadBringsImage : Prop :=
  ∀ s : State,
    (isRunning s = true ∨ s.part.rstnHeld = true ∨ s.part.supplyHeld = true →
      exec .startUpLoad s = .next s) ∧
    (isRunning s = false → s.part.rstnHeld = false → s.part.supplyHeld = false →
      s.store.setup = none →
        ∃ t, exec .startUpLoad s = .next t ∧
          let img := t.store.image
          (∀ page, s.store.page = .holds page → pageGood page = true → ∀ f, f ∈ fieldTable →
            fieldValue (imageByte img) f =
              storedValue f.form (fieldValue (imageByte page) f)) ∧
          (∀ page, s.store.page = .holds page → pageGood page = true →
            ∀ p : PortId, t.alerts.heldLost[p] = false) ∧
          (let kind (l : Line) : AlertKind := match l with | .x0 => .inputX0 | .x1 => .inputX1
          ∀ l q, lineActive t l = true → subscribed t q (kind l) = true →
            kind l ∈ pendingOf t q) ∧
          ((∀ page, s.store.page = .holds page → pageGood page = false) →
            (∀ f, f ∈ fieldTable → fieldValue (imageByte img) f = f.factory) ∧
            ∀ p : PortId, t.alerts.heldLost[p] = true) ∧
          (∀ o, o < 256 → fieldAt o = none → imageByte img o = 0) ∧
          isRunning t = true ∧ t.store.page = s.store.page ∧ t.wires = s.wires ∧
          (∀ k, recordOf t k = copiedRecord img k ∧ (grantOf t k).state =
            if (copiedRecord img k).owner = none then .unused else .idle) ∧
          t.pool.shares = copiedShares img ∧
          (∀ p, freeList t p = portFrames (copiedShares img) p ∧ (portOf t p).active = false) ∧
          (∀ n : ProbeId, t.scanner.probes[n] =
            { address := probeAddress img n, layer := probeLayer img n
              state := if probeLayer img n = none then .unused else .unread
              lastValid := 0, holdCount := 0 }) ∧
          t.scanner.interval = (imageByte img 0x020).toNat ∧
          (∀ l, (lineOf t l).settled = (lineOf s l).pin ∧ (lineOf t l).settling = none ∧
            (lineOf t l).activeLevel = linePolarity img l ∧
            (lineOf t l).settleTime = lineSettle img l) ∧
          t.alerts.modes = copiedModes img ∧ t.ports.timeout = silenceTimeout img ∧
          t.planner.periodLength = periodLength img ∧
          t.planner.lateThreshold = lateThreshold img ∧
          t.cycle.interval = disinfectionInterval img ∧ t.cycle.hold = disinfectionHold img ∧
          t.cycle.deadline = disinfectionDeadline img ∧ t.cycle.tDis = tDis img ∧
          t.cycle.floor = comfortFloor img ∧
          ((∃ n, probeLayer img n ≠ none) → t.planner.timerRunning = false ∧
            (t.cycle.state = if disinfectionInterval img = 0 then .off else .counting) ∧
            t.cycle.sinceSuccess = 0 ∧ t.cycle.sinceDue = 0 ∧ t.cycle.holdCount = 0 ∧
            t.scanner.scan = some
              { toRead := (List.finRange 8).filter fun n => (probeLayer img n).isSome
                results := []
                holdLimit := (imageByte img 0x021).toNat
                inversionMargin := (imageWord img 0x022).toNat
                tLimit := (imageWord img 0x02A).toInt
                hysteresis := (imageWord img 0x02C).toNat }) ∧
          ((∀ n, probeLayer img n = none) → s.model.scanCompleted = false →
            t.scanner.scan = none ∧ t.model.state = .none ∧
            t.model.scanCompleted = true ∧ t.model.inversion = false ∧
            t.model.layers = s.model.layers ∧ t.planner.timerRunning = true ∧
            t.planner.period = 0 ∧ t.planner.secondsRemaining = periodLength img ∧
            t.planner.lateMark = false ∧
            ∃ plan, t.planner.state = .planningFull plan ∧ planHolds .full t plan))

/-! ## Invariants of every step -/

/-- What State.reset holds: each invariant below. Its erased page, its low pins and the factory values it
holds until the load are the model's choice (log entries 1 and 2). -/
def Obligations.InvariantsHoldAtReset : Prop :=
  SourcesProtected State.reset ∧ RanksPermuted State.reset ∧ GrantsFormed State.reset ∧
    FramesListed State.reset ∧ PlannerInOrder State.reset ∧ LevelKindsFollow State.reset ∧
    AlertSetsFormed State.reset ∧ ImagesInRange State.reset ∧ RequestsMatchSlots State.reset

/-- R46: no step lets a source run while overtemperature or X1 is active, the model is NONE, the part is
in SETUP, its owner port is SILENT, or X0 holds it back. -/
def Obligations.StepsProtectSources : Prop :=
  ∀ s t : State, SourcesProtected s → step s = .next t → SourcesProtected t

/-- R43, R44, R55: every step keeps the turn ranks a permutation of 0 to 5 and the grant records in
form. R38, R45, R75, R79: where the frames are listed in order, it keeps at most one HEAT or STANDING
request held for a slot, from the slot's owner, none for an IDLE or UNUSED slot and one for a WAITING or
RUNNING slot. -/
def Obligations.StepsKeepGrantRecords : Prop :=
  ∀ s t : State, GrantsFormed s → step s = .next t →
    GrantsFormed t ∧ (RanksPermuted s → RanksPermuted t) ∧
    (FramesListed s → RequestsMatchSlots s → RequestsMatchSlots t)

/-- R62 to R65: every step keeps the frames' states and the ports' lists in agreement. R62 gives states to
owned frames alone: that a frame no port owns is FREE is the model's clause (log entry 14). -/
def Obligations.StepsKeepFramesListed : Prop :=
  ∀ s t : State, FramesListed s → step s = .next t → FramesListed t

/-- R91, R109: every step keeps the planner SUSPENDED exactly in SETUP, its mark and timer in order, and
the revocation list of a late plan empty. -/
def Obligations.StepsKeepPlannerInOrder : Prop :=
  ∀ s t : State, PlannerInOrder s → step s = .next t → PlannerInOrder t

/-- R141, R143: every step keeps each LEVEL kind pending exactly where it should be, and, with images in
range, only subscribed kinds pending, no kind in both sets of a port, and no EDGE kind awaiting clear. R142:
a step that takes the condition of a kind in EDGE mode from false to true leaves the kind pending at every
port that is subscribed to it throughout. -/
def Obligations.StepsKeepLevelKinds : Prop :=
  ∀ s t : State, step s = .next t →
    (LevelKindsFollow s → LevelKindsFollow t) ∧
    (AlertSetsFormed s → ImagesInRange s → AlertSetsFormed t) ∧
    ∀ k q, levelCapable k = true → modeOf s k = .edge → modeOf t k = .edge →
      condition s k = false → condition t k = true → subscribed s q k = true →
      subscribed t q k = true → k ∈ pendingOf t q

/-- R168: no step leaves an out-of-range value in the image or in the entry snapshot. -/
def Obligations.StepsKeepImagesInRange : Prop :=
  ∀ s t : State, ImagesInRange s → step s = .next t → ImagesInRange t
end

