-- ==== Sys2Proof/Laws/State.lean ====
section
/-! SUPPORT. One lemma per field per setter of State, true by rfl, so that no later proof unfolds a
record update. -/

namespace Sys2Proof.Machine

@[simp] theorem State.setPart_part (s : State) (x : Part) : (s.setPart x).part = x := rfl
@[simp] theorem State.setPart_scanner (s : State) (x : Part) : (s.setPart x).scanner = s.scanner := rfl
@[simp] theorem State.setPart_model (s : State) (x : Part) : (s.setPart x).model = s.model := rfl
@[simp] theorem State.setPart_table (s : State) (x : Part) : (s.setPart x).table = s.table := rfl
@[simp] theorem State.setPart_pool (s : State) (x : Part) : (s.setPart x).pool = s.pool := rfl
@[simp] theorem State.setPart_planner (s : State) (x : Part) : (s.setPart x).planner = s.planner := rfl
@[simp] theorem State.setPart_safety (s : State) (x : Part) : (s.setPart x).safety = s.safety := rfl
@[simp] theorem State.setPart_cycle (s : State) (x : Part) : (s.setPart x).cycle = s.cycle := rfl
@[simp] theorem State.setPart_alerts (s : State) (x : Part) : (s.setPart x).alerts = s.alerts := rfl
@[simp] theorem State.setPart_ports (s : State) (x : Part) : (s.setPart x).ports = s.ports := rfl
@[simp] theorem State.setPart_wires (s : State) (x : Part) : (s.setPart x).wires = s.wires := rfl
@[simp] theorem State.setPart_store (s : State) (x : Part) : (s.setPart x).store = s.store := rfl
@[simp] theorem State.setPart_openDraws (s : State) (x : Part) : (s.setPart x).openDraws = s.openDraws := rfl
@[simp] theorem State.setPart_pending (s : State) (x : Part) : (s.setPart x).pending = s.pending := rfl

@[simp] theorem State.setScanner_part (s : State) (x : Scanner) : (s.setScanner x).part = s.part := rfl
@[simp] theorem State.setScanner_scanner (s : State) (x : Scanner) : (s.setScanner x).scanner = x := rfl
@[simp] theorem State.setScanner_model (s : State) (x : Scanner) : (s.setScanner x).model = s.model := rfl
@[simp] theorem State.setScanner_table (s : State) (x : Scanner) : (s.setScanner x).table = s.table := rfl
@[simp] theorem State.setScanner_pool (s : State) (x : Scanner) : (s.setScanner x).pool = s.pool := rfl
@[simp] theorem State.setScanner_planner (s : State) (x : Scanner) : (s.setScanner x).planner = s.planner := rfl
@[simp] theorem State.setScanner_safety (s : State) (x : Scanner) : (s.setScanner x).safety = s.safety := rfl
@[simp] theorem State.setScanner_cycle (s : State) (x : Scanner) : (s.setScanner x).cycle = s.cycle := rfl
@[simp] theorem State.setScanner_alerts (s : State) (x : Scanner) : (s.setScanner x).alerts = s.alerts := rfl
@[simp] theorem State.setScanner_ports (s : State) (x : Scanner) : (s.setScanner x).ports = s.ports := rfl
@[simp] theorem State.setScanner_wires (s : State) (x : Scanner) : (s.setScanner x).wires = s.wires := rfl
@[simp] theorem State.setScanner_store (s : State) (x : Scanner) : (s.setScanner x).store = s.store := rfl
@[simp] theorem State.setScanner_openDraws (s : State) (x : Scanner) : (s.setScanner x).openDraws = s.openDraws := rfl
@[simp] theorem State.setScanner_pending (s : State) (x : Scanner) : (s.setScanner x).pending = s.pending := rfl

@[simp] theorem State.setModel_part (s : State) (x : LayerModel) : (s.setModel x).part = s.part := rfl
@[simp] theorem State.setModel_scanner (s : State) (x : LayerModel) : (s.setModel x).scanner = s.scanner := rfl
@[simp] theorem State.setModel_model (s : State) (x : LayerModel) : (s.setModel x).model = x := rfl
@[simp] theorem State.setModel_table (s : State) (x : LayerModel) : (s.setModel x).table = s.table := rfl
@[simp] theorem State.setModel_pool (s : State) (x : LayerModel) : (s.setModel x).pool = s.pool := rfl
@[simp] theorem State.setModel_planner (s : State) (x : LayerModel) : (s.setModel x).planner = s.planner := rfl
@[simp] theorem State.setModel_safety (s : State) (x : LayerModel) : (s.setModel x).safety = s.safety := rfl
@[simp] theorem State.setModel_cycle (s : State) (x : LayerModel) : (s.setModel x).cycle = s.cycle := rfl
@[simp] theorem State.setModel_alerts (s : State) (x : LayerModel) : (s.setModel x).alerts = s.alerts := rfl
@[simp] theorem State.setModel_ports (s : State) (x : LayerModel) : (s.setModel x).ports = s.ports := rfl
@[simp] theorem State.setModel_wires (s : State) (x : LayerModel) : (s.setModel x).wires = s.wires := rfl
@[simp] theorem State.setModel_store (s : State) (x : LayerModel) : (s.setModel x).store = s.store := rfl
@[simp] theorem State.setModel_openDraws (s : State) (x : LayerModel) : (s.setModel x).openDraws = s.openDraws := rfl
@[simp] theorem State.setModel_pending (s : State) (x : LayerModel) : (s.setModel x).pending = s.pending := rfl

@[simp] theorem State.setTable_part (s : State) (x : SourceTable) : (s.setTable x).part = s.part := rfl
@[simp] theorem State.setTable_scanner (s : State) (x : SourceTable) : (s.setTable x).scanner = s.scanner := rfl
@[simp] theorem State.setTable_model (s : State) (x : SourceTable) : (s.setTable x).model = s.model := rfl
@[simp] theorem State.setTable_table (s : State) (x : SourceTable) : (s.setTable x).table = x := rfl
@[simp] theorem State.setTable_pool (s : State) (x : SourceTable) : (s.setTable x).pool = s.pool := rfl
@[simp] theorem State.setTable_planner (s : State) (x : SourceTable) : (s.setTable x).planner = s.planner := rfl
@[simp] theorem State.setTable_safety (s : State) (x : SourceTable) : (s.setTable x).safety = s.safety := rfl
@[simp] theorem State.setTable_cycle (s : State) (x : SourceTable) : (s.setTable x).cycle = s.cycle := rfl
@[simp] theorem State.setTable_alerts (s : State) (x : SourceTable) : (s.setTable x).alerts = s.alerts := rfl
@[simp] theorem State.setTable_ports (s : State) (x : SourceTable) : (s.setTable x).ports = s.ports := rfl
@[simp] theorem State.setTable_wires (s : State) (x : SourceTable) : (s.setTable x).wires = s.wires := rfl
@[simp] theorem State.setTable_store (s : State) (x : SourceTable) : (s.setTable x).store = s.store := rfl
@[simp] theorem State.setTable_openDraws (s : State) (x : SourceTable) : (s.setTable x).openDraws = s.openDraws := rfl
@[simp] theorem State.setTable_pending (s : State) (x : SourceTable) : (s.setTable x).pending = s.pending := rfl

@[simp] theorem State.setPool_part (s : State) (x : RequestPool) : (s.setPool x).part = s.part := rfl
@[simp] theorem State.setPool_scanner (s : State) (x : RequestPool) : (s.setPool x).scanner = s.scanner := rfl
@[simp] theorem State.setPool_model (s : State) (x : RequestPool) : (s.setPool x).model = s.model := rfl
@[simp] theorem State.setPool_table (s : State) (x : RequestPool) : (s.setPool x).table = s.table := rfl
@[simp] theorem State.setPool_pool (s : State) (x : RequestPool) : (s.setPool x).pool = x := rfl
@[simp] theorem State.setPool_planner (s : State) (x : RequestPool) : (s.setPool x).planner = s.planner := rfl
@[simp] theorem State.setPool_safety (s : State) (x : RequestPool) : (s.setPool x).safety = s.safety := rfl
@[simp] theorem State.setPool_cycle (s : State) (x : RequestPool) : (s.setPool x).cycle = s.cycle := rfl
@[simp] theorem State.setPool_alerts (s : State) (x : RequestPool) : (s.setPool x).alerts = s.alerts := rfl
@[simp] theorem State.setPool_ports (s : State) (x : RequestPool) : (s.setPool x).ports = s.ports := rfl
@[simp] theorem State.setPool_wires (s : State) (x : RequestPool) : (s.setPool x).wires = s.wires := rfl
@[simp] theorem State.setPool_store (s : State) (x : RequestPool) : (s.setPool x).store = s.store := rfl
@[simp] theorem State.setPool_openDraws (s : State) (x : RequestPool) : (s.setPool x).openDraws = s.openDraws := rfl
@[simp] theorem State.setPool_pending (s : State) (x : RequestPool) : (s.setPool x).pending = s.pending := rfl

@[simp] theorem State.setPlanner_part (s : State) (x : Planner) : (s.setPlanner x).part = s.part := rfl
@[simp] theorem State.setPlanner_scanner (s : State) (x : Planner) : (s.setPlanner x).scanner = s.scanner := rfl
@[simp] theorem State.setPlanner_model (s : State) (x : Planner) : (s.setPlanner x).model = s.model := rfl
@[simp] theorem State.setPlanner_table (s : State) (x : Planner) : (s.setPlanner x).table = s.table := rfl
@[simp] theorem State.setPlanner_pool (s : State) (x : Planner) : (s.setPlanner x).pool = s.pool := rfl
@[simp] theorem State.setPlanner_planner (s : State) (x : Planner) : (s.setPlanner x).planner = x := rfl
@[simp] theorem State.setPlanner_safety (s : State) (x : Planner) : (s.setPlanner x).safety = s.safety := rfl
@[simp] theorem State.setPlanner_cycle (s : State) (x : Planner) : (s.setPlanner x).cycle = s.cycle := rfl
@[simp] theorem State.setPlanner_alerts (s : State) (x : Planner) : (s.setPlanner x).alerts = s.alerts := rfl
@[simp] theorem State.setPlanner_ports (s : State) (x : Planner) : (s.setPlanner x).ports = s.ports := rfl
@[simp] theorem State.setPlanner_wires (s : State) (x : Planner) : (s.setPlanner x).wires = s.wires := rfl
@[simp] theorem State.setPlanner_store (s : State) (x : Planner) : (s.setPlanner x).store = s.store := rfl
@[simp] theorem State.setPlanner_openDraws (s : State) (x : Planner) : (s.setPlanner x).openDraws = s.openDraws := rfl
@[simp] theorem State.setPlanner_pending (s : State) (x : Planner) : (s.setPlanner x).pending = s.pending := rfl

@[simp] theorem State.setSafety_part (s : State) (x : SafetyMonitor) : (s.setSafety x).part = s.part := rfl
@[simp] theorem State.setSafety_scanner (s : State) (x : SafetyMonitor) : (s.setSafety x).scanner = s.scanner := rfl
@[simp] theorem State.setSafety_model (s : State) (x : SafetyMonitor) : (s.setSafety x).model = s.model := rfl
@[simp] theorem State.setSafety_table (s : State) (x : SafetyMonitor) : (s.setSafety x).table = s.table := rfl
@[simp] theorem State.setSafety_pool (s : State) (x : SafetyMonitor) : (s.setSafety x).pool = s.pool := rfl
@[simp] theorem State.setSafety_planner (s : State) (x : SafetyMonitor) : (s.setSafety x).planner = s.planner := rfl
@[simp] theorem State.setSafety_safety (s : State) (x : SafetyMonitor) : (s.setSafety x).safety = x := rfl
@[simp] theorem State.setSafety_cycle (s : State) (x : SafetyMonitor) : (s.setSafety x).cycle = s.cycle := rfl
@[simp] theorem State.setSafety_alerts (s : State) (x : SafetyMonitor) : (s.setSafety x).alerts = s.alerts := rfl
@[simp] theorem State.setSafety_ports (s : State) (x : SafetyMonitor) : (s.setSafety x).ports = s.ports := rfl
@[simp] theorem State.setSafety_wires (s : State) (x : SafetyMonitor) : (s.setSafety x).wires = s.wires := rfl
@[simp] theorem State.setSafety_store (s : State) (x : SafetyMonitor) : (s.setSafety x).store = s.store := rfl
@[simp] theorem State.setSafety_openDraws (s : State) (x : SafetyMonitor) : (s.setSafety x).openDraws = s.openDraws := rfl
@[simp] theorem State.setSafety_pending (s : State) (x : SafetyMonitor) : (s.setSafety x).pending = s.pending := rfl

@[simp] theorem State.setCycle_part (s : State) (x : DisinfectionCycle) : (s.setCycle x).part = s.part := rfl
@[simp] theorem State.setCycle_scanner (s : State) (x : DisinfectionCycle) : (s.setCycle x).scanner = s.scanner := rfl
@[simp] theorem State.setCycle_model (s : State) (x : DisinfectionCycle) : (s.setCycle x).model = s.model := rfl
@[simp] theorem State.setCycle_table (s : State) (x : DisinfectionCycle) : (s.setCycle x).table = s.table := rfl
@[simp] theorem State.setCycle_pool (s : State) (x : DisinfectionCycle) : (s.setCycle x).pool = s.pool := rfl
@[simp] theorem State.setCycle_planner (s : State) (x : DisinfectionCycle) : (s.setCycle x).planner = s.planner := rfl
@[simp] theorem State.setCycle_safety (s : State) (x : DisinfectionCycle) : (s.setCycle x).safety = s.safety := rfl
@[simp] theorem State.setCycle_cycle (s : State) (x : DisinfectionCycle) : (s.setCycle x).cycle = x := rfl
@[simp] theorem State.setCycle_alerts (s : State) (x : DisinfectionCycle) : (s.setCycle x).alerts = s.alerts := rfl
@[simp] theorem State.setCycle_ports (s : State) (x : DisinfectionCycle) : (s.setCycle x).ports = s.ports := rfl
@[simp] theorem State.setCycle_wires (s : State) (x : DisinfectionCycle) : (s.setCycle x).wires = s.wires := rfl
@[simp] theorem State.setCycle_store (s : State) (x : DisinfectionCycle) : (s.setCycle x).store = s.store := rfl
@[simp] theorem State.setCycle_openDraws (s : State) (x : DisinfectionCycle) : (s.setCycle x).openDraws = s.openDraws := rfl
@[simp] theorem State.setCycle_pending (s : State) (x : DisinfectionCycle) : (s.setCycle x).pending = s.pending := rfl

@[simp] theorem State.setAlerts_part (s : State) (x : AlertRouter) : (s.setAlerts x).part = s.part := rfl
@[simp] theorem State.setAlerts_scanner (s : State) (x : AlertRouter) : (s.setAlerts x).scanner = s.scanner := rfl
@[simp] theorem State.setAlerts_model (s : State) (x : AlertRouter) : (s.setAlerts x).model = s.model := rfl
@[simp] theorem State.setAlerts_table (s : State) (x : AlertRouter) : (s.setAlerts x).table = s.table := rfl
@[simp] theorem State.setAlerts_pool (s : State) (x : AlertRouter) : (s.setAlerts x).pool = s.pool := rfl
@[simp] theorem State.setAlerts_planner (s : State) (x : AlertRouter) : (s.setAlerts x).planner = s.planner := rfl
@[simp] theorem State.setAlerts_safety (s : State) (x : AlertRouter) : (s.setAlerts x).safety = s.safety := rfl
@[simp] theorem State.setAlerts_cycle (s : State) (x : AlertRouter) : (s.setAlerts x).cycle = s.cycle := rfl
@[simp] theorem State.setAlerts_alerts (s : State) (x : AlertRouter) : (s.setAlerts x).alerts = x := rfl
@[simp] theorem State.setAlerts_ports (s : State) (x : AlertRouter) : (s.setAlerts x).ports = s.ports := rfl
@[simp] theorem State.setAlerts_wires (s : State) (x : AlertRouter) : (s.setAlerts x).wires = s.wires := rfl
@[simp] theorem State.setAlerts_store (s : State) (x : AlertRouter) : (s.setAlerts x).store = s.store := rfl
@[simp] theorem State.setAlerts_openDraws (s : State) (x : AlertRouter) : (s.setAlerts x).openDraws = s.openDraws := rfl
@[simp] theorem State.setAlerts_pending (s : State) (x : AlertRouter) : (s.setAlerts x).pending = s.pending := rfl

@[simp] theorem State.setPorts_part (s : State) (x : PartnerPorts) : (s.setPorts x).part = s.part := rfl
@[simp] theorem State.setPorts_scanner (s : State) (x : PartnerPorts) : (s.setPorts x).scanner = s.scanner := rfl
@[simp] theorem State.setPorts_model (s : State) (x : PartnerPorts) : (s.setPorts x).model = s.model := rfl
@[simp] theorem State.setPorts_table (s : State) (x : PartnerPorts) : (s.setPorts x).table = s.table := rfl
@[simp] theorem State.setPorts_pool (s : State) (x : PartnerPorts) : (s.setPorts x).pool = s.pool := rfl
@[simp] theorem State.setPorts_planner (s : State) (x : PartnerPorts) : (s.setPorts x).planner = s.planner := rfl
@[simp] theorem State.setPorts_safety (s : State) (x : PartnerPorts) : (s.setPorts x).safety = s.safety := rfl
@[simp] theorem State.setPorts_cycle (s : State) (x : PartnerPorts) : (s.setPorts x).cycle = s.cycle := rfl
@[simp] theorem State.setPorts_alerts (s : State) (x : PartnerPorts) : (s.setPorts x).alerts = s.alerts := rfl
@[simp] theorem State.setPorts_ports (s : State) (x : PartnerPorts) : (s.setPorts x).ports = x := rfl
@[simp] theorem State.setPorts_wires (s : State) (x : PartnerPorts) : (s.setPorts x).wires = s.wires := rfl
@[simp] theorem State.setPorts_store (s : State) (x : PartnerPorts) : (s.setPorts x).store = s.store := rfl
@[simp] theorem State.setPorts_openDraws (s : State) (x : PartnerPorts) : (s.setPorts x).openDraws = s.openDraws := rfl
@[simp] theorem State.setPorts_pending (s : State) (x : PartnerPorts) : (s.setPorts x).pending = s.pending := rfl

@[simp] theorem State.setWires_part (s : State) (x : Vector Wire 4) : (s.setWires x).part = s.part := rfl
@[simp] theorem State.setWires_scanner (s : State) (x : Vector Wire 4) : (s.setWires x).scanner = s.scanner := rfl
@[simp] theorem State.setWires_model (s : State) (x : Vector Wire 4) : (s.setWires x).model = s.model := rfl
@[simp] theorem State.setWires_table (s : State) (x : Vector Wire 4) : (s.setWires x).table = s.table := rfl
@[simp] theorem State.setWires_pool (s : State) (x : Vector Wire 4) : (s.setWires x).pool = s.pool := rfl
@[simp] theorem State.setWires_planner (s : State) (x : Vector Wire 4) : (s.setWires x).planner = s.planner := rfl
@[simp] theorem State.setWires_safety (s : State) (x : Vector Wire 4) : (s.setWires x).safety = s.safety := rfl
@[simp] theorem State.setWires_cycle (s : State) (x : Vector Wire 4) : (s.setWires x).cycle = s.cycle := rfl
@[simp] theorem State.setWires_alerts (s : State) (x : Vector Wire 4) : (s.setWires x).alerts = s.alerts := rfl
@[simp] theorem State.setWires_ports (s : State) (x : Vector Wire 4) : (s.setWires x).ports = s.ports := rfl
@[simp] theorem State.setWires_wires (s : State) (x : Vector Wire 4) : (s.setWires x).wires = x := rfl
@[simp] theorem State.setWires_store (s : State) (x : Vector Wire 4) : (s.setWires x).store = s.store := rfl
@[simp] theorem State.setWires_openDraws (s : State) (x : Vector Wire 4) : (s.setWires x).openDraws = s.openDraws := rfl
@[simp] theorem State.setWires_pending (s : State) (x : Vector Wire 4) : (s.setWires x).pending = s.pending := rfl

@[simp] theorem State.setStore_part (s : State) (x : SettingsStore) : (s.setStore x).part = s.part := rfl
@[simp] theorem State.setStore_scanner (s : State) (x : SettingsStore) : (s.setStore x).scanner = s.scanner := rfl
@[simp] theorem State.setStore_model (s : State) (x : SettingsStore) : (s.setStore x).model = s.model := rfl
@[simp] theorem State.setStore_table (s : State) (x : SettingsStore) : (s.setStore x).table = s.table := rfl
@[simp] theorem State.setStore_pool (s : State) (x : SettingsStore) : (s.setStore x).pool = s.pool := rfl
@[simp] theorem State.setStore_planner (s : State) (x : SettingsStore) : (s.setStore x).planner = s.planner := rfl
@[simp] theorem State.setStore_safety (s : State) (x : SettingsStore) : (s.setStore x).safety = s.safety := rfl
@[simp] theorem State.setStore_cycle (s : State) (x : SettingsStore) : (s.setStore x).cycle = s.cycle := rfl
@[simp] theorem State.setStore_alerts (s : State) (x : SettingsStore) : (s.setStore x).alerts = s.alerts := rfl
@[simp] theorem State.setStore_ports (s : State) (x : SettingsStore) : (s.setStore x).ports = s.ports := rfl
@[simp] theorem State.setStore_wires (s : State) (x : SettingsStore) : (s.setStore x).wires = s.wires := rfl
@[simp] theorem State.setStore_store (s : State) (x : SettingsStore) : (s.setStore x).store = x := rfl
@[simp] theorem State.setStore_openDraws (s : State) (x : SettingsStore) : (s.setStore x).openDraws = s.openDraws := rfl
@[simp] theorem State.setStore_pending (s : State) (x : SettingsStore) : (s.setStore x).pending = s.pending := rfl

@[simp] theorem State.nextDraw_part (s : State) : s.nextDraw.part = s.part := rfl
@[simp] theorem State.nextDraw_scanner (s : State) : s.nextDraw.scanner = s.scanner := rfl
@[simp] theorem State.nextDraw_model (s : State) : s.nextDraw.model = s.model := rfl
@[simp] theorem State.nextDraw_table (s : State) : s.nextDraw.table = s.table := rfl
@[simp] theorem State.nextDraw_pool (s : State) : s.nextDraw.pool = s.pool := rfl
@[simp] theorem State.nextDraw_planner (s : State) : s.nextDraw.planner = s.planner := rfl
@[simp] theorem State.nextDraw_safety (s : State) : s.nextDraw.safety = s.safety := rfl
@[simp] theorem State.nextDraw_cycle (s : State) : s.nextDraw.cycle = s.cycle := rfl
@[simp] theorem State.nextDraw_alerts (s : State) : s.nextDraw.alerts = s.alerts := rfl
@[simp] theorem State.nextDraw_ports (s : State) : s.nextDraw.ports = s.ports := rfl
@[simp] theorem State.nextDraw_wires (s : State) : s.nextDraw.wires = s.wires := rfl
@[simp] theorem State.nextDraw_store (s : State) : s.nextDraw.store = s.store := rfl
@[simp] theorem State.nextDraw_openDraws (s : State) : s.nextDraw.openDraws = s.openDraws + 1 := rfl
@[simp] theorem State.nextDraw_pending (s : State) : s.nextDraw.pending = s.pending := rfl

end Sys2Proof.Machine
end

