-- ==== Sys2Proof/Laws/Basics.lean ====
section
/-! SUPPORT. The small facts of the containers: what `each` and `modifyAt` hold at an index, that the
enumerations are complete, and membership in a set of kinds. -/

namespace Sys2Proof.Machine

@[simp] theorem getElem_each {α β : Type} {n : Nat} (v : Vector α n) (f : Fin n → α → β) (i : Nat)
    (h : i < n) : (each v f)[i] = f ⟨i, h⟩ v[i] := by
  simp [each]

@[simp] theorem getElem_modifyAt_self {α : Type} {n : Nat} (v : Vector α n) (i : Fin n)
    (f : α → α) : (modifyAt v i f)[i.val] = f v[i.val] := by
  simp [modifyAt]

theorem getElem_modifyAt_other {α : Type} {n : Nat} (v : Vector α n) (i j : Fin n) (f : α → α)
    (h : i ≠ j) : (modifyAt v i f)[j.val] = v[j.val] := by
  have h' : i.val ≠ j.val := fun e => h (Fin.ext e)
  simp [modifyAt, h']

theorem each_keeping {α : Type} {n : Nat} (v : Vector α n) : each v (fun _ a => a) = v := by
  apply Vector.ext
  intro i h
  simp

@[simp] theorem mem_allSlots (k : SlotId) : k ∈ allSlots := List.mem_finRange k

@[simp] theorem mem_allFrames (i : FrameId) : i ∈ allFrames := List.mem_finRange i

@[simp] theorem mem_allPorts (p : PortId) : p ∈ allPorts := List.mem_finRange p

@[simp] theorem AlertKind.mem_all (k : AlertKind) : k ∈ AlertKind.all := by
  cases k <;> decide

theorem AlertKind.number_injective (j k : AlertKind) (h : j.number = k.number) : j = k := by
  cases j <;> cases k <;> first | rfl | (exact absurd h (by decide))

@[simp] theorem mem_kindSet (member : AlertKind → Bool) (k : AlertKind) :
    k ∈ kindSet member ↔ member k = true := by
  simp [kindSet]

@[simp] theorem mem_runningSlots (s : State) (k : SlotId) :
    k ∈ runningSlots s ↔ isGrantRunning s k = true := by
  simp [runningSlots]

/-- A frame's slot is held for exactly when some frame holds it. -/
theorem heldFor_isSome (s : State) (k : SlotId) :
    (heldFor s k).isSome = true ↔ ∃ i, heldSlot s i = some k := by
  simp [heldFor, List.find?_isSome]

theorem heldSlot_of_heldFor (s : State) (k : SlotId) (i : FrameId) (h : heldFor s k = some i) :
    heldSlot s i = some k := by
  have := List.find?_some h
  simpa using this

theorem frameIndex_eq (b : Byte) (i : FrameId) : frameIndex b = some i ↔ b.toNat = i.val := by
  unfold frameIndex
  split
  · simp [Fin.ext_iff]
  · have := i.isLt
    constructor
    · intro h; exact absurd h (by simp)
    · omega

theorem frameIndex_none (b : Byte) : frameIndex b = none ↔ 48 ≤ b.toNat := by
  unfold frameIndex
  split <;> simp <;> omega

theorem slotOf_eq (b : Byte) (k : SlotId) : slotOf b = some k ↔ b.toNat = k.val := by
  unfold slotOf
  split
  · simp [Fin.ext_iff]
  · have := k.isLt
    constructor
    · intro h; exact absurd h (by simp)
    · omega

theorem slotOf_none (b : Byte) : slotOf b = none ↔ 6 ≤ b.toNat := by
  unfold slotOf
  split <;> simp <;> omega

end Sys2Proof.Machine
end

