-- ==== Sys2Proof/Laws/Grants.lean ====
section
/-! SUPPORT. What the shared operations of the Source Table and of the Request Pool do: they change the
grant records and the frames alone (`SourcesMoved`); the end of grants leaves every frame's state and
request (`poolKept`); and what each leaves in a grant record (R46, R47, R52, R56). -/

namespace Sys2Proof.Machine

/-! ## The frame they share -/

/-- Only grant records, frames and reply queues differ. -/
def SourcesMoved (s t : State) : Prop :=
  t = (s.setPool t.pool).setTable t.table ∧ t.table.records = s.table.records ∧
    t.pool.shares = s.pool.shares ∧ t.pool.freeLists = s.pool.freeLists ∧
    t.pool.postLists = s.pool.postLists

theorem SourcesMoved.refl (s : State) : SourcesMoved s s := ⟨rfl, rfl, rfl, rfl, rfl⟩

theorem SourcesMoved.trans {s t u : State} (h : SourcesMoved s t) (k : SourcesMoved t u) :
    SourcesMoved s u := by
  obtain ⟨h1, h2, h3, h4, h5⟩ := h
  obtain ⟨k1, k2, k3, k4, k5⟩ := k
  refine ⟨?_, k2.trans h2, k3.trans h3, k4.trans h4, k5.trans h5⟩
  rw [h1] at k1
  exact k1

/-- A fold of steps each of which moves the sources alone. -/
theorem SourcesMoved.foldl {α : Type} (f : State → α → State)
    (step : ∀ s a, SourcesMoved s (f s a)) (l : List α) (s : State) :
    SourcesMoved s (l.foldl f s) := by
  induction l generalizing s with
  | nil => exact SourcesMoved.refl s
  | cons a rest ih => exact (step s a).trans (ih (f s a))

section Kept
variable {s t : State} (h : SourcesMoved s t)
include h

theorem SourcesMoved.part_eq : t.part = s.part := by rw [h.1]; rfl
theorem SourcesMoved.scanner_eq : t.scanner = s.scanner := by rw [h.1]; rfl
theorem SourcesMoved.model_eq : t.model = s.model := by rw [h.1]; rfl
theorem SourcesMoved.planner_eq : t.planner = s.planner := by rw [h.1]; rfl
theorem SourcesMoved.safety_eq : t.safety = s.safety := by rw [h.1]; rfl
theorem SourcesMoved.cycle_eq : t.cycle = s.cycle := by rw [h.1]; rfl
theorem SourcesMoved.alerts_eq : t.alerts = s.alerts := by rw [h.1]; rfl
theorem SourcesMoved.ports_eq : t.ports = s.ports := by rw [h.1]; rfl
theorem SourcesMoved.wires_eq : t.wires = s.wires := by rw [h.1]; rfl
theorem SourcesMoved.store_eq : t.store = s.store := by rw [h.1]; rfl
theorem SourcesMoved.openDraws_eq : t.openDraws = s.openDraws := by rw [h.1]; rfl
theorem SourcesMoved.pending_eq : t.pending = s.pending := by rw [h.1]; rfl

theorem SourcesMoved.recordOf_eq (k : SlotId) : recordOf t k = recordOf s k := by
  simp [recordOf, h.2.1]

theorem SourcesMoved.ownerOf_eq (i : FrameId) : ownerOf t i = ownerOf s i := by
  simp [ownerOf, h.2.2.1]

theorem SourcesMoved.isRunning_eq : isRunning t = isRunning s := by simp [isRunning, h.part_eq]

theorem SourcesMoved.inSetup_eq : inSetup t = inSetup s := by simp [inSetup, h.store_eq]

theorem SourcesMoved.lineActive_eq (l : Line) : lineActive t l = lineActive s l := by
  cases l <;> simp [lineActive, lineOf, h.isRunning_eq, h.safety_eq]

theorem SourcesMoved.condition_eq (k : AlertKind) : condition t k = condition s k := by
  cases k <;>
    simp [condition, probeFault, modelDegraded, h.safety_eq, h.model_eq, h.scanner_eq, h.cycle_eq,
      h.planner_eq, h.lineActive_eq]

theorem SourcesMoved.heldBackByX0_eq (k : SlotId) : heldBackByX0 t k = heldBackByX0 s k := by
  simp [heldBackByX0, h.recordOf_eq, h.store_eq, h.lineActive_eq]

theorem SourcesMoved.ownerActive_eq (k : SlotId) : ownerActive t k = ownerActive s k := by
  simp [ownerActive, h.recordOf_eq, portActive, portOf, h.ports_eq]

theorem SourcesMoved.grantBarred_eq (k : SlotId) : grantBarred t k = grantBarred s k := by
  simp [grantBarred, h.safety_eq, h.lineActive_eq, h.model_eq, h.inSetup_eq, h.ownerActive_eq,
    h.heldBackByX0_eq]

end Kept

/-- A new pool with the shares, free lists and post lists as they were. -/
theorem setPool_moved (s : State) (x : RequestPool) (h1 : x.shares = s.pool.shares)
    (h2 : x.freeLists = s.pool.freeLists) (h3 : x.postLists = s.pool.postLists) :
    SourcesMoved s (s.setPool x) := ⟨rfl, rfl, h1, h2, h3⟩

/-- A new table with the records as they were. -/
theorem setTable_moved (s : State) (x : SourceTable) (h : x.records = s.table.records) :
    SourcesMoved s (s.setTable x) := ⟨rfl, h, rfl, rfl, rfl⟩

theorem modGrant_moved (s : State) (k : SlotId) (f : GrantRecord → GrantRecord) :
    SourcesMoved s (modGrant s k f) := setTable_moved s _ rfl

theorem eachGrant_moved (s : State) (f : SlotId → GrantRecord → GrantRecord) :
    SourcesMoved s (eachGrant s f) := setTable_moved s _ rfl

theorem modFrame_moved (s : State) (i : FrameId) (f : Frame → Frame) :
    SourcesMoved s (modFrame s i f) := setPool_moved s _ rfl rfl rfl

theorem eachFrame_moved (s : State) (f : FrameId → Frame → Frame) :
    SourcesMoved s (eachFrame s f) := setPool_moved s _ rfl rfl rfl

theorem setReplyQueue_moved (s : State) (p : PortId) (l : List FrameId) :
    SourcesMoved s (setReplyQueue s p l) := setPool_moved s _ rfl rfl rfl

/-! ## The operations -/

theorem recordCause_moved (cause : EndCause) (s : State) (k : SlotId) :
    SourcesMoved s (recordCause cause s k) := by
  unfold recordCause
  split
  · exact .refl s
  · exact modFrame_moved s _ _

theorem endGrant_moved (cause : EndCause) (s : State) (k : SlotId) :
    SourcesMoved s (endGrant cause s k) := by
  unfold endGrant
  split
  · exact (recordCause_moved cause s k).trans (modGrant_moved _ k _)
  · exact .refl s

theorem endGrants_moved (cause : EndCause) (s : State) (slots : List SlotId) :
    SourcesMoved s (endGrants cause s slots) :=
  SourcesMoved.foldl (endGrant cause) (endGrant_moved cause) slots s

theorem revokeAll_moved (cause : EndCause) (s : State) : SourcesMoved s (revokeAll cause s) :=
  endGrants_moved cause s (runningSlots s)

theorem revokePaidBlock_moved (s : State) : SourcesMoved s (revokePaidBlock s) :=
  endGrants_moved .paidBlock s _

theorem releaseSource_moved (s : State) (k : SlotId) : SourcesMoved s (releaseSource s k) := by
  unfold releaseSource
  split
  · exact modGrant_moved s k _
  · exact .refl s

theorem reportFrame_moved (outcome : FrameOutcome) (s : State) (i : FrameId) :
    SourcesMoved s (reportFrame outcome s i) := by
  unfold reportFrame
  split
  · exact modFrame_moved s i _
  · exact (modFrame_moved s i _).trans (setReplyQueue_moved _ _ _)

theorem endRequest_moved (outcome : FrameOutcome) (s : State) (i : FrameId) :
    SourcesMoved s (endRequest outcome s i) := by
  unfold endRequest
  split
  · split
    · exact reportFrame_moved outcome s i
    · exact (reportFrame_moved outcome s i).trans (releaseSource_moved _ _)
  · exact .refl s

theorem endRequests_moved (outcome : FrameId → FrameOutcome) (s : State) (ended : FrameId → Bool) :
    SourcesMoved s (endRequests outcome s ended) :=
  SourcesMoved.foldl _ (fun t i => endRequest_moved (outcome i) t i) _ s

theorem endGrantOf_moved (s : State) (i : FrameId) : SourcesMoved s (endGrantOf s i) := by
  unfold endGrantOf
  split
  · exact .refl s
  · exact endGrant_moved _ s _

theorem countSources_moved (s : State) : SourcesMoved s (countSources s) :=
  (eachFrame_moved s _).trans (eachGrant_moved _ _)

theorem ageRequests_moved (s : State) : SourcesMoved s (ageRequests s) := eachFrame_moved s _

theorem expireRequests_moved (s : State) : SourcesMoved s (expireRequests s) :=
  (SourcesMoved.foldl endGrantOf endGrantOf_moved _ s).trans (endRequests_moved _ _ _)

theorem endAtTarget_moved (s : State) (slots : List SlotId) :
    SourcesMoved s (endAtTarget s slots) :=
  (endGrants_moved .target s slots).trans (endRequests_moved _ _ _)

theorem recordFirstGrant_moved (s : State) (k : SlotId) :
    SourcesMoved s (recordFirstGrant s k) := by
  unfold recordFirstGrant
  split
  · exact .refl s
  · split
    · exact .refl s
    · exact modFrame_moved s _ _

theorem takeGrant_moved (s : State) (e : GrantEntry) : SourcesMoved s (takeGrant s e) := by
  unfold takeGrant
  split
  · split
    · exact modGrant_moved s _ _
    · exact (recordFirstGrant_moved s _).trans (modGrant_moved _ _ _)
  · exact .refl s

theorem takeGrants_moved (entries : List GrantEntry) (s : State) :
    SourcesMoved s (entries.foldl takeGrant s) := SourcesMoved.foldl takeGrant takeGrant_moved entries s

theorem rotateRanks_moved (s : State) (winner : SlotId) : SourcesMoved s (rotateRanks s winner) :=
  eachGrant_moved s _

theorem rotations_moved (winners : List GrantEntry) (s : State) :
    SourcesMoved s (winners.foldl (fun t e => rotateRanks t e.slot) s) := by
  apply SourcesMoved.foldl
  intro t e
  exact rotateRanks_moved t e.slot

/-! ## Readers of one item -/

@[simp] theorem grantOf_modGrant_self (s : State) (k : SlotId) (f : GrantRecord → GrantRecord) :
    grantOf (modGrant s k f) k = f (grantOf s k) := by
  simp [grantOf, modGrant]

theorem grantOf_modGrant_other (s : State) (k j : SlotId) (f : GrantRecord → GrantRecord)
    (h : k ≠ j) : grantOf (modGrant s k f) j = grantOf s j := by
  simpa [grantOf, modGrant] using getElem_modifyAt_other s.table.grants k j f h

@[simp] theorem grantOf_eachGrant (s : State) (f : SlotId → GrantRecord → GrantRecord)
    (k : SlotId) : grantOf (eachGrant s f) k = f k (grantOf s k) := by
  simp [grantOf, eachGrant]

@[simp] theorem frameOf_modFrame_self (s : State) (i : FrameId) (f : Frame → Frame) :
    frameOf (modFrame s i f) i = f (frameOf s i) := by
  simp [frameOf, modFrame]

theorem frameOf_modFrame_other (s : State) (i j : FrameId) (f : Frame → Frame) (h : i ≠ j) :
    frameOf (modFrame s i f) j = frameOf s j := by
  simpa [frameOf, modFrame] using getElem_modifyAt_other s.pool.frames i j f h

@[simp] theorem frameOf_eachFrame (s : State) (f : FrameId → Frame → Frame) (i : FrameId) :
    frameOf (eachFrame s f) i = f i (frameOf s i) := by
  simp [frameOf, eachFrame]

@[simp] theorem grantOf_modFrame (s : State) (i : FrameId) (f : Frame → Frame) (k : SlotId) :
    grantOf (modFrame s i f) k = grantOf s k := rfl

@[simp] theorem frameOf_modGrant (s : State) (k : SlotId) (f : GrantRecord → GrantRecord)
    (i : FrameId) : frameOf (modGrant s k f) i = frameOf s i := rfl

@[simp] theorem grantOf_recordCause (cause : EndCause) (s : State) (k j : SlotId) :
    grantOf (recordCause cause s k) j = grantOf s j := by
  unfold recordCause
  split <;> rfl

/-! ## Held requests where frames keep their states and requests -/

theorem poolKept.refl (s : State) : poolKept s s :=
  ⟨rfl, rfl, rfl, rfl, fun _ => ⟨rfl, rfl⟩⟩

theorem poolKept.trans {s t u : State} (h : poolKept s t) (k : poolKept t u) : poolKept s u :=
  ⟨k.1.trans h.1, k.2.1.trans h.2.1, k.2.2.1.trans h.2.2.1, k.2.2.2.1.trans h.2.2.2.1,
    fun i => ⟨(k.2.2.2.2 i).1.trans (h.2.2.2.2 i).1, (k.2.2.2.2 i).2.trans (h.2.2.2.2 i).2⟩⟩

theorem poolKept.foldl {α : Type} (f : State → α → State) (step : ∀ s a, poolKept s (f s a))
    (l : List α) (s : State) : poolKept s (l.foldl f s) := by
  induction l generalizing s with
  | nil => exact poolKept.refl s
  | cons a rest ih => exact (step s a).trans (ih (f s a))

section Held
variable {s t : State} (h : poolKept s t)
include h

theorem poolKept.isHeld_eq (i : FrameId) : isHeld t i = isHeld s i := by
  simp [isHeld, (h.2.2.2.2 i).1]

theorem poolKept.kindOf_eq (i : FrameId) : kindOf t i = kindOf s i := by
  simp [kindOf, (h.2.2.2.2 i).2]

theorem poolKept.heldSlot_eq (i : FrameId) : heldSlot t i = heldSlot s i := by
  simp [heldSlot, h.isHeld_eq, h.kindOf_eq, (h.2.2.2.2 i).2]

theorem poolKept.heldFor_eq (k : SlotId) : heldFor t k = heldFor s k := by
  simp only [heldFor, h.heldSlot_eq]

end Held

/-- A change of one frame's result fields keeps what the requests are. -/
theorem modFrame_result_kept (s : State) (i : FrameId) (f : Result → Result) :
    poolKept s (modFrame s i fun fr => { fr with result := f fr.result }) := by
  refine ⟨rfl, rfl, rfl, rfl, fun j => ?_⟩
  by_cases hij : i = j
  · subst hij; simp
  · simp [frameOf_modFrame_other s i j _ hij]

theorem modGrant_kept (s : State) (k : SlotId) (f : GrantRecord → GrantRecord) :
    poolKept s (modGrant s k f) := ⟨rfl, rfl, rfl, rfl, fun _ => ⟨rfl, rfl⟩⟩

theorem recordCause_kept (cause : EndCause) (s : State) (k : SlotId) :
    poolKept s (recordCause cause s k) := by
  unfold recordCause
  split
  · exact .refl s
  · exact modFrame_result_kept s _ fun r => { r with endCause := cause }

theorem endGrant_kept (cause : EndCause) (s : State) (k : SlotId) :
    poolKept s (endGrant cause s k) := by
  unfold endGrant
  split
  · exact (recordCause_kept cause s k).trans (modGrant_kept _ k _)
  · exact .refl s

theorem endGrants_kept (cause : EndCause) (s : State) (slots : List SlotId) :
    poolKept s (endGrants cause s slots) :=
  poolKept.foldl (endGrant cause) (endGrant_kept cause) slots s

theorem recordFirstGrant_kept (s : State) (k : SlotId) : poolKept s (recordFirstGrant s k) := by
  unfold recordFirstGrant
  split
  · exact .refl s
  · split
    · exact .refl s
    · exact modFrame_result_kept s _ fun r => { r with firstGrant := s.planner.period }

theorem takeGrant_kept (s : State) (e : GrantEntry) : poolKept s (takeGrant s e) := by
  unfold takeGrant
  split
  · split
    · exact modGrant_kept s _ _
    · exact (recordFirstGrant_kept s _).trans (modGrant_kept _ _ _)
  · exact .refl s

/-! ## The end of grants -/

theorem endedGrant_not_running (minRest : Nat) (held : Bool) (g : GrantRecord) :
    (endedGrant minRest held g).state ≠ .running := by
  unfold endedGrant
  split
  · simp
  · cases held <;> simp

/-- The statements' form of a grant end. -/
theorem endedGrant_eq_grantEnded (minRest : Nat) (held : Bool) (g : GrantRecord) :
    endedGrant minRest held g = grantEnded minRest held g := by
  unfold endedGrant grantEnded
  split
  · rfl
  · cases held <;> rfl

/-- R47: the slot whose grant ends. -/
theorem grantOf_endGrant_self (cause : EndCause) (s : State) (k : SlotId) :
    grantOf (endGrant cause s k) k =
      if isGrantRunning s k then
        endedGrant (recordOf s k).minRest (heldFor s k).isSome (grantOf s k)
      else grantOf s k := by
  unfold endGrant
  split <;> simp

/-- R47: no other slot changes. -/
theorem grantOf_endGrant_other (cause : EndCause) (s : State) (k j : SlotId) (h : k ≠ j) :
    grantOf (endGrant cause s k) j = grantOf s j := by
  unfold endGrant
  split
  · simp [grantOf_modGrant_other _ k j _ h]
  · rfl

/-- R47: the ends of several grants, each slot on its own. -/
theorem grantOf_endGrants (cause : EndCause) (slots : List SlotId) (s : State) (k : SlotId) :
    grantOf (endGrants cause s slots) k =
      if k ∈ slots ∧ isGrantRunning s k = true then
        endedGrant (recordOf s k).minRest (heldFor s k).isSome (grantOf s k)
      else grantOf s k := by
  induction slots generalizing s with
  | nil => simp [endGrants]
  | cons j rest ih =>
    have step : endGrants cause s (j :: rest) = endGrants cause (endGrant cause s j) rest := rfl
    rw [step, ih, (endGrant_moved cause s j).recordOf_eq, (endGrant_kept cause s j).heldFor_eq]
    by_cases hjk : j = k
    · subst hjk
      rw [grantOf_endGrant_self]
      by_cases hr : isGrantRunning s j = true
      · have hend : isGrantRunning (endGrant cause s j) j = false := by
          unfold isGrantRunning
          rw [grantOf_endGrant_self, if_pos hr]
          simp [endedGrant_not_running]
        simp [hend, hr]
      · have hend : isGrantRunning (endGrant cause s j) j = false := by
          unfold isGrantRunning
          rw [grantOf_endGrant_self, if_neg hr]
          simpa [isGrantRunning] using hr
        simp [hend, hr]
    · have hk : grantOf (endGrant cause s j) k = grantOf s k :=
        grantOf_endGrant_other cause s j k hjk
      have hkj : ¬k = j := fun e => hjk e.symm
      simp [isGrantRunning, hk, hkj]

/-- R50: after a revocation of every grant no source is RUNNING. -/
theorem revokeAll_not_running (cause : EndCause) (s : State) (k : SlotId) :
    (grantOf (revokeAll cause s) k).state ≠ .running := by
  unfold revokeAll
  rw [grantOf_endGrants]
  by_cases hr : isGrantRunning s k = true
  · simp [hr, endedGrant_not_running]
  · simpa [hr] using (by simpa [isGrantRunning] using hr)

/-- R50, R127: after the paid-block revocation no source that X0 holds back is RUNNING. -/
theorem revokePaidBlock_not_running (s : State) (k : SlotId) (h : heldBackByX0 s k = true) :
    (grantOf (revokePaidBlock s) k).state ≠ .running := by
  unfold revokePaidBlock
  rw [grantOf_endGrants]
  by_cases hr : isGrantRunning s k = true
  · simp [hr, h, endedGrant_not_running]
  · simpa [hr] using (by simpa [isGrantRunning] using hr)

/-! ## Ranks -/

/-- R55: no end of a grant changes a turn rank. -/
theorem rank_endGrants (cause : EndCause) (slots : List SlotId) (s : State) (k : SlotId) :
    (grantOf (endGrants cause s slots) k).rank = (grantOf s k).rank := by
  rw [grantOf_endGrants]
  split
  · unfold endedGrant
    split <;> rfl
  · rfl

/-- R56: the ranks after one rotation. -/
theorem grantOf_rotateRanks (s : State) (winner k : SlotId) :
    grantOf (rotateRanks s winner) k =
      if k = winner then { grantOf s k with rank := 0 }
      else if (grantOf s k).rank < (grantOf s winner).rank then
        { grantOf s k with rank := (grantOf s k).rank + 1 }
      else grantOf s k := by
  simp [rotateRanks]

/-- R52: one grant record after a period start's count. -/
theorem grantOf_countSources (s : State) (k : SlotId) :
    grantOf (countSources s) k = countedGrant (heldFor s k).isSome (grantOf s k) := by
  simp [countSources, countPeriodsRun, grantOf, eachGrant, eachFrame]

end Sys2Proof.Machine
end

