-- ==== Sys2Proof/Laws/Image.lean ====
section
/-! SUPPORT. The settings image: the bytes of a formed image, the fields of its table, and the values a
write stores (R166, R168, R176, R178, R186). -/

namespace Sys2Proof.Machine

/-! ## Bytes of a formed image -/

theorem imageByte_ofFn (f : Fin 256 → Byte) (o : Nat) (h : o < 256) :
    imageByte (Vector.ofFn f) o = f ⟨o, h⟩ := by
  simp [imageByte, h]

/-- The reader of a formed image, as a function of the offset. -/
theorem imageByte_ofFn_eq (f : Fin 256 → Byte) :
    imageByte (Vector.ofFn f) = fun o => if h : o < 256 then f ⟨o, h⟩ else 0 := by
  funext o
  by_cases h : o < 256 <;> simp [imageByte, h]

theorem imageByte_outside (img : Image) (o : Nat) (h : 256 ≤ o) : imageByte img o = 0 := by
  simp [imageByte, Nat.not_lt.mpr h]

/-- R168: an unassigned byte stays as it is. -/
theorem imageByte_writtenImage_gap (img : Image) (start : Nat) (data : List Byte) (o : Nat)
    (h : o < 256) (ho : fieldAt o = none) :
    imageByte (writtenImage img start data) o = imageByte img o := by
  rw [writtenImage, imageByte_ofFn _ o h]
  simp [ho]

/-- R168: a byte of a field that the write does not reach stays as it is. -/
theorem imageByte_writtenImage_standing (img : Image) (start : Nat) (data : List Byte) (o : Nat)
    (f : Field) (h : o < 256) (ho : fieldAt o = some f)
    (hr : fieldReached start data.length f = false) :
    imageByte (writtenImage img start data) o = imageByte img o := by
  rw [writtenImage, imageByte_ofFn _ o h]
  simp [ho, hr]

/-- R168: a byte of a field that the write reaches. -/
theorem imageByte_writtenImage_written (img : Image) (start : Nat) (data : List Byte) (o : Nat)
    (f : Field) (h : o < 256) (ho : fieldAt o = some f)
    (hr : fieldReached start data.length f = true) :
    imageByte (writtenImage img start data) o =
      fieldByte f (storedValue f.form (fieldValue (overlaid img start data) f)) o := by
  rw [writtenImage, imageByte_ofFn _ o h]
  simp [ho, hr]

/-- R178: a byte of a loaded page. -/
theorem imageByte_loadedImage (page : Image) (o : Nat) (f : Field) (h : o < 256)
    (ho : fieldAt o = some f) :
    imageByte (loadedImage page) o =
      fieldByte f (storedValue f.form (fieldValue (imageByte page) f)) o := by
  rw [loadedImage, imageByte_ofFn _ o h]
  simp [ho]

theorem imageByte_loadedImage_gap (page : Image) (o : Nat) (h : o < 256) (ho : fieldAt o = none) :
    imageByte (loadedImage page) o = 0 := by
  rw [loadedImage, imageByte_ofFn _ o h]
  simp [ho]

/-- R176: the check word changes only the two bytes that hold it. -/
theorem imageByte_withCheckWord (img : Image) (o : Nat) (h : o < 254) :
    imageByte (withCheckWord img) o = imageByte img o := by
  rw [withCheckWord, imageByte_ofFn _ o (by omega)]
  have h1 : o ≠ 254 := by omega
  have h2 : o ≠ 255 := by omega
  simp [imageByte, h1, h2, show o < 256 by omega]

/-! ## The field table -/

/-- R186: the fields lie inside the image and below its check word. -/
theorem fieldTable_below : ∀ f, f ∈ fieldTable → f.offset + fieldWidth f ≤ 254 := by
  decide +kernel

/-- R186: no two fields share a byte: an offset of a field leads back to it. -/
theorem fieldAt_of_mem : ∀ f, f ∈ fieldTable →
    fieldAt f.offset = some f ∧ fieldAt (f.offset + (fieldWidth f - 1)) = some f := by
  decide +kernel

/-- A field covers one byte or two. -/
theorem fieldWidth_one_or_two (f : Field) : fieldWidth f = 1 ∨ fieldWidth f = 2 := by
  unfold fieldWidth
  split <;> simp

/-- R186: the fields stand in ascending offset order. -/
theorem fieldTable_ascending : fieldTable.Pairwise fun f g => f.offset < g.offset := by
  decide +kernel

/-- The field found at an offset is one of the table and covers the offset. -/
theorem fieldAt_some (o : Nat) (f : Field) (h : fieldAt o = some f) :
    f ∈ fieldTable ∧ f.offset ≤ o ∧ o < f.offset + fieldWidth f := by
  have h1 := List.mem_of_find?_eq_some h
  have h2 := List.find?_some h
  simp [fieldCovers] at h2
  exact ⟨h1, h2.1, h2.2⟩

/-- The stored values of a field fit its width, and its range is not empty. -/
def formFits (form : FieldForm) : Bool :=
  match form with
  | .byte lo hi => lo ≤ hi && hi ≤ 255
  | .word lo hi => lo ≤ hi && hi ≤ 65535
  | .temp => true
  | .layerPosition => true
  | .owner => true
  | .flag => true
  | .edgeOnly => true

theorem fieldTable_fits : ∀ f, f ∈ fieldTable → formFits f.form = true := by
  decide +kernel

/-! ## Stored values -/

theorem clampTemp_range (t : Int) : -640 ≤ clampTemp t ∧ clampTemp t ≤ 2400 := by
  unfold clampTemp
  omega

theorem clampTemp_of_range (t : Int) (h : -640 ≤ t ∧ t ≤ 2400) : clampTemp t = t := by
  unfold clampTemp
  omega

/-- A temperature in range survives its two bytes. -/
theorem toInt_ofInt_clampTemp (t : Int) : (BitVec.ofInt 16 (clampTemp t)).toInt = clampTemp t := by
  have := clampTemp_range t
  rw [BitVec.toInt_ofInt, Int.bmod_eq_of_le] <;> omega

/-- R3, R23, R39, R139: writing back what a write stored changes nothing. -/
theorem storedValue_idempotent (form : FieldForm) (v : Nat) (h : formFits form = true) :
    storedValue form (storedValue form v) = storedValue form v := by
  cases form with
  | byte lo hi =>
    simp [formFits] at h
    simp only [storedValue, clampNat]
    omega
  | word lo hi =>
    simp [formFits] at h
    simp only [storedValue, clampNat]
    omega
  | temp =>
    simp only [storedValue, BitVec.ofNat_toNat, BitVec.setWidth_eq, toInt_ofInt_clampTemp]
    rw [clampTemp_of_range _ (clampTemp_range _)]
  | layerPosition =>
    simp only [storedValue]
    split
    · simp
    · rw [if_neg (by omega)]
      omega
  | owner =>
    simp only [storedValue]
    split
    · rfl
    · simp
  | flag =>
    simp only [storedValue]
    omega
  | edgeOnly => rfl

/-- A stored value fits the bytes of its field. -/
theorem storedValue_lt (f : Field) (v : Nat) (h : formFits f.form = true) :
    storedValue f.form v < 256 ^ fieldWidth f := by
  unfold fieldWidth
  cases hf : f.form with
  | byte lo hi =>
    simp [formFits, hf] at h
    simp only [storedValue, clampNat]
    omega
  | word lo hi =>
    simp [formFits, hf] at h
    simp only [storedValue, clampNat]
    omega
  | temp =>
    simp only [storedValue]
    exact (BitVec.ofInt 16 _).isLt
  | layerPosition =>
    simp only [storedValue]
    split <;> omega
  | owner =>
    simp only [storedValue]
    split <;> omega
  | flag =>
    simp only [storedValue]
    omega
  | edgeOnly => simp [storedValue]

/-- A word is its low and its high byte. -/
theorem wordOf_bytes (v : Nat) (h : v < 65536) : (wordOf (byteOf v) (byteOf (v / 256))).toNat = v := by
  have append := BitVec.toNat_append (byteOf (v / 256)) (byteOf v)
  rw [← Nat.shiftLeft_add_eq_or_of_lt (byteOf v).isLt, Nat.shiftLeft_eq] at append
  refine append.trans ?_
  simp only [byteOf, BitVec.toNat_ofNat]
  omega

/-- The bytes that hold a value read back as the value. -/
theorem fieldValue_fieldByte (f : Field) (v : Nat) (h : v < 256 ^ fieldWidth f) :
    fieldValue (fieldByte f v) f = v := by
  rcases fieldWidth_one_or_two f with hw | hw
  · simp [fieldValue, fieldByte, hw, byteOf] at h ⊢
    omega
  · rw [hw] at h
    simp only [fieldValue, fieldByte, hw]
    simpa using wordOf_bytes v (by omega)

/-- A field's value is made of its first and its last byte. -/
theorem fieldValue_congr (g h : Nat → Byte) (f : Field) (first : g f.offset = h f.offset)
    (last : g (f.offset + (fieldWidth f - 1)) = h (f.offset + (fieldWidth f - 1))) :
    fieldValue g f = fieldValue h f := by
  rcases fieldWidth_one_or_two f with hw | hw
  · simp [fieldValue, hw, first]
  · rw [hw] at last
    simp [fieldValue, hw, first, last]

/-- R186: every field of the factory image holds its default. -/
theorem fieldValue_factoryImage (f : Field) (h : f ∈ fieldTable) :
    fieldValue (imageByte factoryImage) f = f.factory := by
  have below := fieldTable_below f h
  have found := fieldAt_of_mem f h
  have width := fieldWidth_one_or_two f
  have small : f.factory < 256 ^ fieldWidth f := by
    revert f
    decide +kernel
  rw [← fieldValue_fieldByte f f.factory small]
  apply fieldValue_congr
  · rw [factoryImage, imageByte_ofFn _ _ (by omega)]
    simp [found.1]
  · rw [factoryImage, imageByte_ofFn _ _ (by omega)]
    simp [found.2]

/-- R178: every field of a loaded image holds the value that a write of the page's value stores. -/
theorem fieldValue_loadedImage (page : Image) (f : Field) (h : f ∈ fieldTable) :
    fieldValue (imageByte (loadedImage page)) f =
      storedValue f.form (fieldValue (imageByte page) f) := by
  have below := fieldTable_below f h
  have found := fieldAt_of_mem f h
  have width := fieldWidth_one_or_two f
  rw [← fieldValue_fieldByte f _ (storedValue_lt f _ (fieldTable_fits f h))]
  apply fieldValue_congr
  · rw [imageByte_loadedImage page _ f (by omega) found.1]
  · rw [imageByte_loadedImage page _ f (by omega) found.2]

/-- R168: every field of a written image: the stored value if the write reaches it, else as it was. -/
theorem fieldValue_writtenImage (img : Image) (start : Nat) (data : List Byte) (f : Field)
    (h : f ∈ fieldTable) :
    fieldValue (imageByte (writtenImage img start data)) f =
      if fieldReached start data.length f then
        storedValue f.form (fieldValue (overlaid img start data) f)
      else fieldValue (imageByte img) f := by
  have below := fieldTable_below f h
  have found := fieldAt_of_mem f h
  have width := fieldWidth_one_or_two f
  by_cases reached : fieldReached start data.length f = true
  · rw [if_pos reached, ← fieldValue_fieldByte f _ (storedValue_lt f _ (fieldTable_fits f h))]
    apply fieldValue_congr
    · rw [imageByte_writtenImage_written img start data _ f (by omega) found.1 reached]
    · rw [imageByte_writtenImage_written img start data _ f (by omega) found.2 reached]
  · rw [if_neg reached]
    have standing : fieldReached start data.length f = false := by simpa using reached
    apply fieldValue_congr
    · rw [imageByte_writtenImage_standing img start data _ f (by omega) found.1 standing]
    · rw [imageByte_writtenImage_standing img start data _ f (by omega) found.2 standing]

end Sys2Proof.Machine
end

