-- ==== Sys2Proof/Laws/Forming.lean ====
section
/-! SUPPORT. What a plan holds at its beginning (R95 to R103, R108, R109): `formPlan_holds` says it once,
from the candidate order and the allotment. -/

namespace Sys2Proof.Machine

/-! ## The tests of a plan as propositions -/

theorem requestKind_eq (b : Byte) (kind : RequestKind) : requestKind b = some kind ↔
    b = (match kind with | .heat => 1 | .standing => 2 | .reserve => 3 | .comfort => 4 | .cancel => 5) := by
  unfold requestKind
  cases kind <;> constructor <;> intro h
  all_goals first
    | (subst h; decide)
    | (split at h; · first | assumption | cases h
       split at h; · first | assumption | cases h
       split at h; · first | assumption | cases h
       split at h; · first | assumption | cases h
       split at h; · first | assumption | cases h
       cases h)

theorem planFigures_eq (s : State) : planFigures s = formFigures (presented s) := by
  have amounts (kind : RequestKind) (b : Byte) (h : ∀ c, requestKind c = some kind ↔ c = b) :
      heldAmounts s kind = ((List.finRange 48).filter fun i =>
        isHeld s i && (frameOf s i).request.kind == b).map fun i =>
          (frameOf s i).request.amount.toNat := by
    unfold heldAmounts heldSet allFrames
    congr 2
    funext i
    have := h (frameOf s i).request.kind
    simp only [kindOf]
    congr 1
    rw [Bool.eq_iff_iff]
    simpa using this
  unfold planFigures presented
  rw [amounts .comfort 4 (requestKind_eq · .comfort), amounts .reserve 3 (requestKind_eq · .reserve)]

theorem planBlocked_iff (s : State) : planBlocked s = true ↔ isBlocked s := by
  simp [planBlocked, isBlocked, or_assoc]

theorem isGrantRunning_iff (s : State) (k : SlotId) :
    isGrantRunning s k = true ↔ (grantOf s k).state = .running := by
  simp [isGrantRunning]

theorem isGrantWaiting_iff (s : State) (k : SlotId) :
    isGrantWaiting s k = true ↔ (grantOf s k).state = .waiting := by
  simp [isGrantWaiting]

theorem ownerActive_iff (s : State) (k : SlotId) : ownerActive s k = true ↔ onActivePort s k := by
  unfold ownerActive onActivePort
  cases h : (recordOf s k).owner with
  | none => simp
  | some p => simp [portActive]

theorem hasRequest_iff (s : State) (c : SourceClass) (k : SlotId) :
    hasRequest s c k = true ↔ usedWithRequest s c k := by
  simp [hasRequest, usedWithRequest, Option.isSome_iff_ne_none, and_assoc]

theorem effectiveTarget_eq (s : State) (k : SlotId) (i : FrameId) :
    effectiveTarget s k i = plannedTarget s k i := by
  have heat : kindOf s i = some .heat ↔ (frameOf s i).request.kind = 1 :=
    requestKind_eq (frameOf s i).request.kind .heat
  unfold effectiveTarget plannedTarget requestTarget dueInSnapshot
  simp only [heat, beq_iff_eq, Int.min_assoc]

theorem passesTarget_iff (s : State) (k : SlotId) : passesTarget s k = true ↔ belowTarget s k := by
  unfold passesTarget belowTarget
  cases h : heldFor s k with
  | none => simp
  | some i => simp [targetTest, effectiveTarget_eq]

theorem heldOver_iff (s : State) (kind : PlanKind) (k : SlotId) :
    heldOver s kind k = true ↔ runsUnderMinimum s kind k := by
  simp [heldOver, runsUnderMinimum, isGrantRunning_iff, and_assoc]

theorem considered_iff (s : State) (kind : PlanKind) (k : SlotId) :
    considered s kind k = true ↔
      (grantOf s k).state = .waiting ∨ (kind = .full ∧ (grantOf s k).state = .running) := by
  simp [considered, isGrantRunning_iff, isGrantWaiting_iff]

theorem freeGranted_iff (s : State) (kind : PlanKind) (k : SlotId) :
    freeGranted s kind k = true ↔ grantsFree s kind k := by
  simp [freeGranted, grantsFree, hasRequest_iff, heldOver_iff, considered_iff, ownerActive_iff,
    passesTarget_iff, and_assoc]

theorem heldOverPaid_iff (s : State) (kind : PlanKind) (k : SlotId) :
    heldOverPaid s kind k = true ↔ usedWithRequest s .paid k ∧ runsUnderMinimum s kind k := by
  simp [heldOverPaid, hasRequest_iff, heldOver_iff]

theorem heldBackByX0_iff (s : State) (k : SlotId) :
    heldBackByX0 s k = false ↔ ((recordOf s k).sourceClass = .paid → clearOfX0 s k) := by
  unfold heldBackByX0 clearOfX0
  cases (recordOf s k).sourceClass <;> cases blockObey s.store.image k <;> simp

theorem eligible_iff (s : State) (kind : PlanKind) (k : SlotId) :
    eligible s kind (planFigures s).lineInUse k = true ↔ isCandidate s kind k := by
  have states : (((grantOf s k).state = .waiting ∨
        (kind = .full ∧ (grantOf s k).state = .running)) ∧ ¬runsUnderMinimum s kind k) ↔
      ((grantOf s k).state = .waiting ∨ (kind = .full ∧ (grantOf s k).state = .running ∧
        (recordOf s k).minRun ≤ (grantOf s k).runCount)) := by
    unfold runsUnderMinimum
    cases (grantOf s k).state <;> cases kind <;> simp
  have due : (dueInSnapshot s = false ∨ tDis s.store.image ≤ (recordOf s k).ceiling) ↔
      (s.planner.snapshot.cycle = .due → tDis s.store.image ≤ (recordOf s k).ceiling) := by
    unfold dueInSnapshot
    cases s.planner.snapshot.cycle <;> simp
  have notOver : heldOver s kind k = false ↔ ¬runsUnderMinimum s kind k := by
    rw [← heldOver_iff, Bool.not_eq_true]
  unfold isCandidate eligible
  rw [← states]
  simp only [Bool.and_eq_true, Bool.or_eq_true, Bool.not_eq_true', decide_eq_true_eq,
    hasRequest_iff, considered_iff, ownerActive_iff, heldBackByX0_iff, passesTarget_iff,
    planFigures_eq, notOver, due]
  constructor
  · rintro ⟨⟨⟨⟨⟨⟨⟨a, b⟩, c⟩, d⟩, e⟩, f⟩, g⟩, h⟩
    exact ⟨a, ⟨b, c⟩, d, e a.2.1, f, g, h⟩
  · rintro ⟨a, ⟨b, c⟩, d, e, f, g, h⟩
    exact ⟨⟨⟨⟨⟨⟨⟨a, b⟩, c⟩, d⟩, fun _ => e⟩, f⟩, g⟩, h⟩

/-! ## The candidate order -/

theorem mem_candidateOrder (s : State) (member : SlotId → Bool) (k : SlotId)
    (merit : meritOf s.store.image k < 8) (rank : (grantOf s k).rank < 6) :
    k ∈ candidateOrder s member ↔ member k = true := by
  have ranks : (grantOf s k).rank ∈ [5, 4, 3, 2, 1, 0] := by
    have : ∀ r, r < 6 → r ∈ [5, 4, 3, 2, 1, 0] := by decide
    exact this _ rank
  simp only [candidateOrder, List.mem_flatMap, List.mem_filter, mem_allSlots, true_and,
    Bool.and_eq_true, beq_iff_eq, List.mem_range]
  constructor
  · rintro ⟨_, _, _, _, ⟨h, _⟩, _⟩
    exact h
  · intro h
    exact ⟨_, merit, _, ranks, ⟨h, rfl⟩, rfl⟩

/-- R101: the order is the candidate order. -/
theorem candidateOrder_pairwise (s : State) (member : SlotId → Bool) (ranks : RanksPermuted s) :
    (candidateOrder s member).Pairwise (comesBefore s) := by
  unfold candidateOrder
  rw [List.pairwise_flatMap]
  refine ⟨fun merit _ => ?_, ?_⟩
  · rw [List.pairwise_flatMap]
    refine ⟨fun rank _ => ?_, ?_⟩
    · refine List.Pairwise.imp_of_mem (R := fun a b => a ≠ b) ?_
        (List.Pairwise.filter _ (List.nodup_finRange 6))
      intro a b ha hb differ
      simp only [List.mem_filter, Bool.and_eq_true, beq_iff_eq] at ha hb
      exact absurd (ranks.2 a b (ha.2.2.trans hb.2.2.symm)) differ
    · have descending : [5, 4, 3, 2, 1, 0].Pairwise fun a b : Nat => b < a := by decide
      refine descending.imp ?_
      intro r q less a ha b hb
      simp only [List.mem_filter, Bool.and_eq_true, beq_iff_eq] at ha hb
      refine .inr ⟨ha.2.1.2.trans hb.2.1.2.symm, ?_⟩
      rw [ha.2.2, hb.2.2]
      exact less
  · refine List.pairwise_lt_range.imp ?_
    intro m n less a ha b hb
    simp only [List.mem_flatMap, List.mem_filter, Bool.and_eq_true, beq_iff_eq] at ha hb
    obtain ⟨_, _, _, ⟨_, ha⟩, _⟩ := ha
    obtain ⟨_, _, _, ⟨_, hb⟩, _⟩ := hb
    exact .inl (by rw [ha, hb]; exact less)

/-! ## The allotment -/

/-- The sum of the powers of granted slots. -/
def grantedPower (granted : List (SlotId × Nat)) : Nat := (granted.map (·.2)).sum

theorem allotHeldOver_slots (s : State) (slots : List SlotId) (need : Nat) :
    (allotHeldOver s slots need).1.map (·.1) = slots := by
  induction slots generalizing need with
  | nil => rfl
  | cons k rest ih => simp [allotHeldOver, ih]

theorem allotHeldOver_rest (s : State) (slots : List SlotId) (need : Nat) :
    (allotHeldOver s slots need).2 = need - grantedPower (allotHeldOver s slots need).1 := by
  induction slots generalizing need with
  | nil => simp [allotHeldOver, grantedPower]
  | cons k rest ih =>
    simp only [allotHeldOver, grantedPower, List.map_cons, List.sum_cons] at ih ⊢
    rw [ih]
    omega

/-- R102: each power from what the grants before it leave of the need. -/
def allottedFrom (s : State) (need : Nat) (granted : List (SlotId × Nat)) : Prop :=
  ∀ earlier g later, granted = earlier ++ g :: later →
    g.2 = allotted s g.1 (need - grantedPower earlier)

theorem allottedFrom_cons (s : State) (need : Nat) (k : SlotId) (rest : List (SlotId × Nat))
    (h : allottedFrom s (need - allotted s k need) rest) :
    allottedFrom s need ((k, allotted s k need) :: rest) := by
  intro earlier g later split
  cases earlier with
  | nil =>
    obtain ⟨rfl, rfl⟩ := List.cons.inj split
    simp [grantedPower]
  | cons first earlier =>
    obtain ⟨rfl, tail⟩ := List.cons.inj split
    have := h earlier g later tail
    rw [this]
    simp only [grantedPower, List.map_cons, List.sum_cons]
    congr 1
    omega

theorem allottedFrom_append (s : State) (need : Nat) (first second : List (SlotId × Nat))
    (h1 : allottedFrom s need first) (h2 : allottedFrom s (need - grantedPower first) second) :
    allottedFrom s need (first ++ second) := by
  intro earlier g later split
  rcases List.append_eq_append_iff.mp split with ⟨middle, rfl, h⟩ | ⟨middle, rfl, h⟩
  · rw [h2 middle g later h]
    simp only [grantedPower, List.map_append, List.sum_append]
    congr 1
    omega
  · cases middle with
    | nil =>
      simp only [List.append_nil] at h2 ⊢
      have := h2 [] g later (by simpa using h.symm)
      simpa [grantedPower] using this
    | cons x middle =>
      obtain ⟨rfl, _⟩ := List.cons.inj h
      exact h1 earlier g middle rfl

theorem allotHeldOver_allotted (s : State) (slots : List SlotId) (need : Nat) :
    allottedFrom s need (allotHeldOver s slots need).1 := by
  induction slots generalizing need with
  | nil => intro earlier g later split; simp [allotHeldOver] at split
  | cons k rest ih => exact allottedFrom_cons s need k _ (ih _)

theorem allotCandidates_allotted (s : State) (slots : List SlotId) (need : Nat) :
    allottedFrom s need (allotCandidates s slots need) := by
  induction slots generalizing need with
  | nil => intro earlier g later split; simp [allotCandidates] at split
  | cons k rest ih =>
    unfold allotCandidates
    split
    · intro earlier g later split; simp at split
    · exact allottedFrom_cons s need k _ (ih _)

/-- R102, step 2: every candidate is granted from a remaining need above 0. -/
theorem allotCandidates_needed (s : State) (slots : List SlotId) (need : Nat) :
    ∀ earlier g later, allotCandidates s slots need = earlier ++ g :: later →
      grantedPower earlier < need := by
  induction slots generalizing need with
  | nil => intro earlier g later split; simp [allotCandidates] at split
  | cons k rest ih =>
    intro earlier g later split
    unfold allotCandidates at split
    split at split
    · simp at split
    · cases earlier with
      | nil => simp only [grantedPower, List.map_nil, List.sum_nil]; omega
      | cons first earlier =>
        obtain ⟨rfl, tail⟩ := List.cons.inj split
        have := ih _ earlier g later tail
        simp only [grantedPower, List.map_cons, List.sum_cons] at this ⊢
        omega

/-- R102, step 4: the granted candidates are the first of the order, and those after them are reached
with no need left. -/
theorem allotCandidates_prefix (s : State) (slots : List SlotId) (need : Nat) :
    ∃ rest, slots = (allotCandidates s slots need).map (·.1) ++ rest ∧
      (rest ≠ [] → need ≤ grantedPower (allotCandidates s slots need)) := by
  induction slots generalizing need with
  | nil => exact ⟨[], rfl, fun h => absurd rfl h⟩
  | cons k rest ih =>
    unfold allotCandidates
    split
    · rename_i h
      exact ⟨k :: rest, rfl, fun _ => by omega⟩
    · obtain ⟨tail, h1, h2⟩ := ih (need - allotted s k need)
      refine ⟨tail, by simp only [List.map_cons, List.cons_append]; rw [← h1], fun some => ?_⟩
      have := h2 some
      simp only [grantedPower, List.map_cons, List.sum_cons] at this ⊢
      omega

/-! ## The entries -/

/-- The entry of a granted slot that has a held request. -/
def entryOf (s : State) (g : SlotId × Nat) : GrantEntry :=
  let i := (heldFor s g.1).getD 0
  { slot := g.1, frame := i, power := g.2, target := plannedTarget s g.1 i
    wasRunning := isGrantRunning s g.1, merit := meritOf s.store.image g.1 }

theorem filterMap_grantEntry (s : State) (granted : List (SlotId × Nat))
    (h : ∀ g, g ∈ granted → heldFor s g.1 ≠ none) :
    granted.filterMap (grantEntry s) = granted.map (entryOf s) := by
  induction granted with
  | nil => rfl
  | cons g rest ih =>
    obtain ⟨i, held⟩ := Option.ne_none_iff_exists'.mp (h g (List.mem_cons_self ..))
    rw [List.map_cons, ← ih fun x hx => h x (List.mem_cons_of_mem _ hx)]
    simp [grantEntry, entryOf, held, effectiveTarget_eq]

theorem entryFormed_entryOf (s : State) (g : SlotId × Nat) (h : heldFor s g.1 ≠ none) :
    entryFormed s (entryOf s g) := by
  obtain ⟨i, held⟩ := Option.ne_none_iff_exists'.mp h
  simp [entryFormed, entryOf, held, isGrantRunning_iff]

theorem powersOf_entries (s : State) (granted : List (SlotId × Nat)) :
    powersOf (granted.map (entryOf s)) = grantedPower granted := by
  simp [powersOf, grantedPower, Function.comp_def, entryOf]

/-- A split of the entries is a split of the grants. -/
theorem entries_split (s : State) (granted : List (SlotId × Nat)) (earlier later : List GrantEntry)
    (e : GrantEntry) (h : granted.map (entryOf s) = earlier ++ e :: later) :
    ∃ before g after, granted = before ++ g :: after ∧ earlier = before.map (entryOf s) ∧
      e = entryOf s g := by
  obtain ⟨before, rest, rfl, h1, h2⟩ := List.map_eq_append_iff.mp h
  obtain ⟨g, after, rfl, h3, _⟩ := List.map_eq_cons_iff.mp h2
  exact ⟨before, g, after, rfl, h1.symm, h3.symm⟩

theorem powersAllotted_entries (s : State) (need : Nat) (granted : List (SlotId × Nat))
    (h : allottedFrom s need granted) : powersAllotted s need (granted.map (entryOf s)) := by
  intro earlier e later split
  obtain ⟨before, g, after, rfl, rfl, rfl⟩ := entries_split s granted earlier later e split
  rw [powersOf_entries]
  exact h before g after rfl

theorem mem_entries_slot (s : State) (granted : List (SlotId × Nat)) (k : SlotId) :
    (∃ e, e ∈ granted.map (entryOf s) ∧ e.slot = k) ↔ k ∈ granted.map (·.1) := by
  constructor
  · rintro ⟨e, he, rfl⟩
    obtain ⟨g, hg, rfl⟩ := List.mem_map.mp he
    exact List.mem_map_of_mem hg
  · intro h
    obtain ⟨g, hg, rfl⟩ := List.mem_map.mp h
    exact ⟨entryOf s g, List.mem_map_of_mem hg, rfl⟩

theorem entries_pairwise (s : State) (granted : List (SlotId × Nat)) (R : SlotId → SlotId → Prop)
    (h : (granted.map (·.1)).Pairwise R) :
    (granted.map (entryOf s)).Pairwise fun d e => R d.slot e.slot := by
  rw [List.pairwise_map] at h ⊢
  exact h

/-! ## The plan -/

theorem startingNeed_eq (s : State) (kind : PlanKind) :
    startingNeed s kind (planFigures s).published.need = needAtStart s kind := by
  have running : ∀ l : List SlotId, ((l.filter fun k => isGrantRunning s k).map fun k =>
        if (recordOf s k).sourceClass = .paid then (grantOf s k).power else 0).sum =
      ((l.filter fun k => (grantOf s k).state == .running &&
        (recordOf s k).sourceClass == .paid).map fun k => (grantOf s k).power).sum := by
    intro l
    induction l with
    | nil => rfl
    | cons k rest ih =>
      by_cases h1 : (grantOf s k).state = .running <;>
        by_cases h2 : (recordOf s k).sourceClass = .paid <;>
          simp_all [isGrantRunning]
  cases kind with
  | full => simp [startingNeed, needAtStart, planFigures_eq]
  | late =>
    simp only [startingNeed, needAtStart, planFigures_eq, runningPaidPower, runningSlots, allSlots]
    rw [running]

/-- R95 to R103, R108, R109: what a plan holds. -/
theorem formPlan_holds (kind : PlanKind) (s : State) (ranks : RanksPermuted s)
    (merits : ∀ k, meritOf s.store.image k < 8) : planHolds kind s (formPlan kind s) := by
  have order (member : SlotId → Bool) (k : SlotId) :
      k ∈ candidateOrder s member ↔ member k = true :=
    mem_candidateOrder s member k (merits k) (ranks.1 k)
  unfold planHolds formPlan
  refine ⟨?_, ?_, ?_⟩
  · dsimp only
    split <;> rw [← planFigures_eq]
  · intro blocked
    rw [if_pos ((planBlocked_iff s).mpr blocked)]
    exact ⟨rfl, rfl, rfl⟩
  · intro free
    rw [if_neg fun h => free ((planBlocked_iff s).mp h)]
    dsimp only
    generalize hc : candidateOrder s (eligible s kind (planFigures s).lineInUse) = candidates
    generalize hf : ((allSlots.filter fun k => freeGranted s kind k).map fun k =>
      (k, (recordOf s k).ratedPower)) = freeGrants
    rw [startingNeed_eq]
    have continuedSlots := allotHeldOver_slots s (candidateOrder s (heldOverPaid s kind))
      (needAtStart s kind)
    have continuedRest := allotHeldOver_rest s (candidateOrder s (heldOverPaid s kind))
      (needAtStart s kind)
    have continuedPowers := allotHeldOver_allotted s (candidateOrder s (heldOverPaid s kind))
      (needAtStart s kind)
    generalize allotHeldOver s (candidateOrder s (heldOverPaid s kind)) (needAtStart s kind) =
      continued at *
    have paidPowers := allotCandidates_allotted s candidates continued.2
    have paidNeeded := allotCandidates_needed s candidates continued.2
    obtain ⟨ungranted, split, exhausted⟩ := allotCandidates_prefix s candidates continued.2
    generalize allotCandidates s candidates continued.2 = paid at *
    have inOrder : candidates.Pairwise (comesBefore s) := hc ▸ candidateOrder_pairwise s _ ranks
    have isMember (k : SlotId) : k ∈ candidates ↔ isCandidate s kind k := by
      rw [← hc, order, eligible_iff]
    have freeSlots : freeGrants.map (·.1) = allSlots.filter fun k => freeGranted s kind k := by
      rw [← hf]
      simp [Function.comp_def]
    have heldSlots (k : SlotId) : k ∈ continued.1.map (·.1) ↔
        usedWithRequest s .paid k ∧ runsUnderMinimum s kind k := by
      rw [continuedSlots, order, heldOverPaid_iff]
    have requested : ∀ g, g ∈ freeGrants ++ continued.1 ++ paid → heldFor s g.1 ≠ none := by
      intro g hg
      rw [List.mem_append, List.mem_append] at hg
      rcases hg with (hg | hg) | hg
      · have := List.mem_map_of_mem (f := (·.1)) hg
        rw [freeSlots, List.mem_filter] at this
        exact ((freeGranted_iff s kind g.1).mp this.2).1.2.2
      · exact ((heldSlots g.1).mp (List.mem_map_of_mem hg)).1.2.2
      · have := List.mem_map_of_mem (f := (·.1)) hg
        have := (isMember g.1).mp (by rw [split]; exact List.mem_append_left _ this)
        exact this.1.2.2
    rw [filterMap_grantEntry s _ requested]
    refine ⟨freeGrants.map (entryOf s), continued.1.map (entryOf s), paid.map (entryOf s), ?_⟩
    have slotsOf (k : SlotId) (l : List (SlotId × Nat)) :
        (∀ e, e ∈ l.map (entryOf s) → e.slot ≠ k) ↔ k ∉ l.map (·.1) := by
      rw [← mem_entries_slot s l k]
      exact ⟨fun h ⟨e, he, hk⟩ => h e he hk, fun h e he hk => h ⟨e, he, hk⟩⟩
    have ungrantedIff (k : SlotId) : (isCandidate s kind k ∧
        ∀ e, e ∈ paid.map (entryOf s) → e.slot ≠ k) ↔ k ∈ ungranted := by
      rw [slotsOf, ← isMember, split, List.mem_append]
      constructor
      · rintro ⟨h | h, other⟩
        · exact absurd h other
        · exact h
      · intro h
        refine ⟨.inr h, fun h' => ?_⟩
        have := (List.pairwise_append.mp (split ▸ inOrder)).2.2 k h' k h
        rcases this with this | this <;> omega
    unfold grantsChosen
    refine ⟨by simp, ?_, ?_, ?_, ?_, ?_, ?_, ?_, ?_, ?_, ?_, ?_, ?_, ?_⟩
    · intro e he
      obtain ⟨g, hg, rfl⟩ := List.mem_map.mp he
      exact entryFormed_entryOf s g (requested g hg)
    · intro k
      rw [mem_entries_slot, freeSlots]
      simp [freeGranted_iff]
    · refine entries_pairwise s _ (· < ·) ?_
      rw [freeSlots]
      exact .filter _ (List.pairwise_lt_finRange 6)
    · rw [← hf]
      intro e he
      simp only [List.map_map, List.mem_map, Function.comp] at he
      obtain ⟨k, _, rfl⟩ := he
      rfl
    · intro k
      rw [mem_entries_slot, heldSlots]
    · refine entries_pairwise s _ (comesBefore s) ?_
      rw [continuedSlots]
      exact candidateOrder_pairwise s _ ranks
    · intro e he
      obtain ⟨g, hg, rfl⟩ := List.mem_map.mp he
      refine (isMember g.1).mp ?_
      rw [split]
      exact List.mem_append_left _ (List.mem_map_of_mem hg)
    · refine entries_pairwise s _ (comesBefore s) ?_
      exact (List.pairwise_append.mp (split ▸ inOrder)).1
    · rw [← List.map_append]
      refine powersAllotted_entries s _ _ (allottedFrom_append s _ _ _ continuedPowers ?_)
      rw [← continuedRest]
      exact paidPowers
    · intro earlier e later h
      obtain ⟨before, g, after, h1, rfl, rfl⟩ := entries_split s paid earlier later e h
      have := paidNeeded before g after h1
      rw [continuedRest] at this
      rw [← List.map_append, powersOf_entries]
      simp only [grantedPower, List.map_append, List.sum_append] at this ⊢
      omega
    · intro k candidate other
      have last := (ungrantedIff k).mp ⟨candidate, other⟩
      refine ⟨?_, ?_⟩
      · have := exhausted (List.ne_nil_of_mem last)
        rw [continuedRest] at this
        rw [← List.map_append, powersOf_entries]
        simp only [grantedPower, List.map_append, List.sum_append] at this ⊢
        omega
      · intro e he
        obtain ⟨g, hg, rfl⟩ := List.mem_map.mp he
        exact (List.pairwise_append.mp (split ▸ inOrder)).2.2 _ (List.mem_map_of_mem hg) k last
    · intro m
      have here (k : SlotId) : (k ∈ candidates ∧ (paid.map (·.1)).contains k = false) ↔
          k ∈ ungranted := by
        rw [← ungrantedIff, slotsOf, isMember]
        simp
      rw [List.mem_map]
      simp only [List.mem_filter, Bool.not_eq_true', here]
      constructor
      · rintro ⟨k, h, rfl⟩
        have := (ungrantedIff k).mpr h
        exact ⟨k, this.1, this.2, rfl⟩
      · rintro ⟨k, h1, h2, rfl⟩
        exact ⟨k, (ungrantedIff k).mp ⟨h1, h2⟩, rfl⟩
    · intro k
      rw [slotsOf]
      cases kind with
      | full => simp [isGrantRunning_iff]
      | late => simp

/-! ## Settings in range -/

/-- R42: a merit in range is at most 7. -/
theorem meritOf_lt (img : Image) (h : imageInRange img) (k : SlotId) : meritOf img k < 8 := by
  have inTable : (⟨recordOffset k + 8, .byte 0 7, .liveOf k, 0⟩ : Field) ∈ fieldTable := by
    revert k
    decide +kernel
  have stored := h.1 _ inTable
  simp only [storedValue, fieldValue, fieldWidth, clampNat] at stored
  show (imageByte img (recordOffset k + 8)).toNat < 8
  simp only [if_true] at stored
  omega

/-- R139: in an image in range every edge-only kind is in EDGE mode. -/
theorem levelSelected_edgeOnly (img : Image) (h : imageInRange img) (k : AlertKind)
    (edgeOnly : levelCapable k = false) : levelSelected img k.number = false := by
  have inTable : (⟨0x0B0 + k.number.val, .edgeOnly, .setupOnly, 0⟩ : Field) ∈ fieldTable := by
    revert edgeOnly
    cases k <;> first | (intro h; exact absurd h (by decide)) | (intro _; decide +kernel)
  have stored := h.1 _ inTable
  simp only [storedValue, fieldValue, fieldWidth, if_true] at stored
  simp [levelSelected, imageU8, ← stored]

/-- R95 to R103, R108, R109: what a plan holds, on an image in range. -/
theorem formPlan_holds_inRange (kind : PlanKind) (s : State) (ranks : RanksPermuted s)
    (range : imageInRange s.store.image) : planHolds kind s (formPlan kind s) :=
  formPlan_holds kind s ranks (meritOf_lt s.store.image range)

end Sys2Proof.Machine
end

