-- ==== Sys2Proof/Laws/Completion.lean ====
section
/-! SUPPORT. What a plan's completion does to the sources (R46, R47, R48, R56, R57, R104):
`applyPlan_applied` says it once, from the taking of one grant and the end of one. -/

namespace Sys2Proof.Machine

/-! ## The request of a slot -/

/-- The request held for one slot is held for no other. -/
theorem heldFor_injective (s : State) (j k : SlotId) (i : FrameId) (hj : heldFor s j = some i)
    (hk : heldFor s k = some i) : j = k :=
  Option.some.inj ((heldSlot_of_heldFor s j i hj).symm.trans (heldSlot_of_heldFor s k i hk))

/-- R47, step 2: the end of another slot's grant does not reach the request of a slot. -/
theorem result_endGrant_other (cause : EndCause) (s : State) (j k : SlotId) (i : FrameId)
    (held : heldFor s k = some i) (h : j ≠ k) :
    (frameOf (endGrant cause s j) i).result = (frameOf s i).result := by
  unfold endGrant recordCause
  split
  · split
    · rfl
    · rename_i m hm
      have other : m ≠ i := fun e => h (heldFor_injective s j k i (e ▸ hm) held)
      rw [frameOf_modGrant, frameOf_modFrame_other s m i _ other]
  · rfl

/-- R47, step 2: the cause goes into the request of the slot. -/
theorem result_endGrant_self (cause : EndCause) (s : State) (k : SlotId) (i : FrameId)
    (held : heldFor s k = some i) : (frameOf (endGrant cause s k) i).result =
      if isGrantRunning s k = true then { (frameOf s i).result with endCause := cause }
      else (frameOf s i).result := by
  unfold endGrant recordCause
  split
  · simp [held]
  · rfl

/-- R47: the request of a slot after the ends of several grants. -/
theorem result_endGrants (cause : EndCause) (slots : List SlotId) (s : State) (k : SlotId)
    (i : FrameId) (held : heldFor s k = some i) :
    (frameOf (endGrants cause s slots) i).result =
      if k ∈ slots ∧ isGrantRunning s k = true then
        { (frameOf s i).result with endCause := cause }
      else (frameOf s i).result := by
  induction slots generalizing s with
  | nil => simp [endGrants]
  | cons j rest ih =>
    have step : endGrants cause s (j :: rest) = endGrants cause (endGrant cause s j) rest := rfl
    rw [step, ih _ (((endGrant_kept cause s j).heldFor_eq k).trans held)]
    by_cases hjk : j = k
    · subst hjk
      rw [result_endGrant_self cause s j i held]
      by_cases hr : isGrantRunning s j = true
      · have ended : isGrantRunning (endGrant cause s j) j = false := by
          unfold isGrantRunning
          rw [grantOf_endGrant_self, if_pos hr]
          simp [endedGrant_not_running]
        simp [ended, hr]
      · have ended : isGrantRunning (endGrant cause s j) j = false := by
          unfold isGrantRunning
          rw [grantOf_endGrant_self, if_neg hr]
          simpa [isGrantRunning] using hr
        simp [ended, hr]
    · have same : isGrantRunning (endGrant cause s j) k = isGrantRunning s k := by
        simp only [isGrantRunning, grantOf_endGrant_other cause s j k hjk]
      have other : ¬k = j := fun e => hjk e.symm
      simp [same, other, result_endGrant_other cause s j k i held hjk]

/-! ## Taking grants -/

/-- R46: the grant record of the slot that an entry names. -/
theorem grantOf_takeGrant_self (s : State) (e : GrantEntry) : grantOf (takeGrant s e) e.slot =
    if grantTakes s e = true then
      if e.wasRunning then
        { grantOf s e.slot with power := e.power, target := e.target }
      else
        { grantOf s e.slot with
          state := .running, power := e.power, target := e.target, runCount := 0,
          firstGrant := s.planner.period, requestGranted := true }
    else grantOf s e.slot := by
  unfold takeGrant
  split
  · split
    · simp [continueGrant]
    · rw [beginGrant, grantOf_modGrant_self]
      have : grantOf (recordFirstGrant s e.slot) e.slot = grantOf s e.slot := by
        unfold recordFirstGrant
        split
        · rfl
        · split <;> rfl
      rw [this]
  · rfl

theorem grantOf_takeGrant_other (s : State) (e : GrantEntry) (k : SlotId) (h : e.slot ≠ k) :
    grantOf (takeGrant s e) k = grantOf s k := by
  unfold takeGrant
  split
  · split
    · rw [continueGrant, grantOf_modGrant_other _ _ _ _ h]
    · rw [beginGrant, grantOf_modGrant_other _ _ _ _ h]
      unfold recordFirstGrant
      split
      · rfl
      · split <;> rfl
  · rfl

/-- R46, R57: the request of the slot that an entry names. -/
theorem result_takeGrant_self (s : State) (e : GrantEntry) (i : FrameId)
    (held : heldFor s e.slot = some i) : (frameOf (takeGrant s e) i).result =
      if grantTakes s e = true ∧ e.wasRunning = false ∧
          (grantOf s e.slot).requestGranted = false then
        { (frameOf s i).result with firstGrant := s.planner.period }
      else (frameOf s i).result := by
  unfold takeGrant
  by_cases h1 : grantTakes s e = true
  · by_cases h2 : e.wasRunning = true
    · simp [h1, h2, continueGrant]
    · by_cases h3 : (grantOf s e.slot).requestGranted = true
      · simp [h1, h2, h3, beginGrant, recordFirstGrant]
      · simp [h1, h2, h3, beginGrant, recordFirstGrant, held]
  · simp [h1]

theorem result_takeGrant_other (s : State) (e : GrantEntry) (k : SlotId) (i : FrameId)
    (held : heldFor s k = some i) (h : e.slot ≠ k) :
    (frameOf (takeGrant s e) i).result = (frameOf s i).result := by
  unfold takeGrant
  split
  · split
    · rfl
    · rw [beginGrant, frameOf_modGrant]
      unfold recordFirstGrant
      split
      · rfl
      · split
        · rfl
        · rename_i m hm
          have other : m ≠ i := fun e' => h (heldFor_injective s e.slot k i (e' ▸ hm) held)
          rw [frameOf_modFrame_other s m i _ other]
  · rfl

theorem grantTakes_takeGrant (s : State) (d e : GrantEntry) (h : d.slot ≠ e.slot) :
    grantTakes (takeGrant s d) e = grantTakes s e := by
  simp [grantTakes, isGrantRunning, isGrantWaiting, (takeGrant_moved s d).grantBarred_eq,
    grantOf_takeGrant_other s d e.slot h]

/-- R46: a slot that no entry names keeps its record and its request. -/
theorem takeGrants_unnamed (entries : List GrantEntry) (s : State) (k : SlotId)
    (h : ∀ e, e ∈ entries → e.slot ≠ k) :
    grantOf (entries.foldl takeGrant s) k = grantOf s k ∧ ∀ i, heldFor s k = some i →
      (frameOf (entries.foldl takeGrant s) i).result = (frameOf s i).result := by
  induction entries generalizing s with
  | nil => exact ⟨rfl, fun _ _ => rfl⟩
  | cons d rest ih =>
    have hd := h d (List.mem_cons_self ..)
    obtain ⟨h1, h2⟩ := ih (takeGrant s d) fun x hx => h x (List.mem_cons_of_mem _ hx)
    refine ⟨h1.trans (grantOf_takeGrant_other s d k hd), fun i held => ?_⟩
    exact (h2 i (((takeGrant_kept s d).heldFor_eq k).trans held)).trans
      (result_takeGrant_other s d k i held hd)

/-- R46: entries of different slots are taken each on its own. -/
theorem takeGrants_named (entries : List GrantEntry) (s : State) (e : GrantEntry)
    (distinct : (entries.map (·.slot)).Nodup) (mem : e ∈ entries) :
    grantOf (entries.foldl takeGrant s) e.slot = grantOf (takeGrant s e) e.slot ∧
      ∀ i, heldFor s e.slot = some i →
        (frameOf (entries.foldl takeGrant s) i).result = (frameOf (takeGrant s e) i).result := by
  induction entries generalizing s with
  | nil => cases mem
  | cons d rest ih =>
    rw [List.map_cons, List.nodup_cons] at distinct
    rcases List.mem_cons.mp mem with rfl | mem
    · obtain ⟨h1, h2⟩ := takeGrants_unnamed rest (takeGrant s e) e.slot fun x hx eq =>
        distinct.1 (eq ▸ List.mem_map_of_mem hx)
      exact ⟨h1, fun i held => h2 i (((takeGrant_kept s e).heldFor_eq e.slot).trans held)⟩
    · have hd : d.slot ≠ e.slot := fun eq => distinct.1 (eq ▸ List.mem_map_of_mem mem)
      obtain ⟨h1, h2⟩ := ih (takeGrant s d) distinct.2 mem
      have period : (takeGrant s d).planner.period = s.planner.period := by
        rw [(takeGrant_moved s d).planner_eq]
      refine ⟨?_, fun i held => ?_⟩
      · refine h1.trans ?_
        rw [grantOf_takeGrant_self, grantOf_takeGrant_self, grantTakes_takeGrant s d e hd,
          grantOf_takeGrant_other s d e.slot hd, period]
      · have held' := ((takeGrant_kept s d).heldFor_eq e.slot).trans held
        refine (h2 i held').trans ?_
        rw [result_takeGrant_self _ e i held', result_takeGrant_self s e i held,
          grantTakes_takeGrant s d e hd, grantOf_takeGrant_other s d e.slot hd, period,
          result_takeGrant_other s d e.slot i held hd]

theorem rank_takeGrant (s : State) (e : GrantEntry) (k : SlotId) :
    (grantOf (takeGrant s e) k).rank = (grantOf s k).rank := by
  by_cases h : e.slot = k
  · subst h
    rw [grantOf_takeGrant_self]
    split
    · split <;> rfl
    · rfl
  · rw [grantOf_takeGrant_other s e k h]

theorem rank_takeGrants (entries : List GrantEntry) (s : State) (k : SlotId) :
    (grantOf (entries.foldl takeGrant s) k).rank = (grantOf s k).rank := by
  induction entries generalizing s with
  | nil => rfl
  | cons e rest ih => exact (ih _).trans (rank_takeGrant s e k)

/-! ## Rotations -/

/-- R56: rotations change no field but the rank. -/
theorem grantOf_rotations (winners : List SlotId) (s : State) (k : SlotId) :
    grantOf (winners.foldl rotateRanks s) k =
      { grantOf s k with rank := (grantOf (winners.foldl rotateRanks s) k).rank } := by
  induction winners generalizing s with
  | nil => rfl
  | cons w rest ih =>
    rw [List.foldl_cons]
    refine (ih _).trans ?_
    rw [grantOf_rotateRanks]
    split
    · rfl
    · split <;> rfl

/-- R56: the ranks after rotations follow from the ranks before them alone. -/
theorem rank_rotations (winners : List SlotId) (s t : State)
    (h : ∀ k, (grantOf s k).rank = (grantOf t k).rank) (k : SlotId) :
    (grantOf (winners.foldl rotateRanks s) k).rank =
      (grantOf (winners.foldl rotateRanks t) k).rank := by
  induction winners generalizing s t with
  | nil => exact h k
  | cons w rest ih =>
    refine ih _ _ fun j => ?_
    rw [grantOf_rotateRanks, grantOf_rotateRanks, h j, h w]
    split
    · rfl
    · split
      · simp
      · exact h j

theorem frameOf_rotations (winners : List SlotId) (s : State) (i : FrameId) :
    frameOf (winners.foldl rotateRanks s) i = frameOf s i := by
  induction winners generalizing s with
  | nil => rfl
  | cons w rest ih => exact ih _

/-! ## The completion -/

/-- Entries of different slots are known by their slots. -/
theorem entry_of_slot (entries : List GrantEntry) (distinct : (entries.map (·.slot)).Nodup)
    (d e : GrantEntry) (hd : d ∈ entries) (he : e ∈ entries) (h : d.slot = e.slot) : d = e := by
  induction entries with
  | nil => cases hd
  | cons x rest ih =>
    rw [List.map_cons, List.nodup_cons] at distinct
    rcases List.mem_cons.mp hd with hdx | hdr <;> rcases List.mem_cons.mp he with hex | her
    · exact hdx.trans hex.symm
    · exact absurd (hdx ▸ h ▸ List.mem_map_of_mem her) distinct.1
    · exact absurd (hex ▸ h ▸ List.mem_map_of_mem hdr) distinct.1
    · exact ih distinct.2 hdr her

theorem grantBarred_iff (s : State) (k : SlotId) : grantBarred s k = false ↔ mayRun s k := by
  simp only [grantBarred, mayRun, Bool.or_eq_false_iff, Bool.not_eq_false', heldBackByX0_iff,
    ownerActive_iff, and_assoc, ne_eq, beq_eq_false_iff_ne]

theorem entryTaken_iff (s : State) (e : GrantEntry) :
    entryPasses s e = true ∧ grantTakes s e = true ↔ entryTaken s e := by
  have barred := grantBarred_iff s e.slot
  have state : (if e.wasRunning = true then isGrantRunning s e.slot
        else isGrantWaiting s e.slot) = true ↔
      (grantOf s e.slot).state = if e.wasRunning then .running else .waiting := by
    split <;> simp [isGrantRunning, isGrantWaiting]
  simp only [grantTakes, Bool.and_eq_true, Bool.not_eq_true', barred, entryTaken, state]
  constructor
  · rintro ⟨passes, run, seen⟩
    simp only [entryPasses, Bool.and_eq_true] at passes
    exact ⟨passes.1.1.1.1.1, run, seen⟩
  · rintro ⟨held, run, seen⟩
    refine ⟨?_, run, seen⟩
    have h := barred.mpr run
    simp only [grantBarred, Bool.or_eq_false_iff] at h
    obtain ⟨⟨⟨⟨⟨h1, h2⟩, h3⟩, _⟩, h5⟩, h6⟩ := h
    simp only [Bool.not_eq_false'] at h5
    simp [entryPasses, held, h1, h2, h5, h6, run.2.2.1]

/-- R46, R47, R48, R56, R57, R104: what a completed plan does to the sources. -/
theorem applyPlan_applied (plan : Plan) (s : State) (formed : PlanFormed plan) :
    planApplied plan s (applyPlan plan s) := by
  obtain ⟨distinct, separate⟩ := formed
  generalize hp : plan.grants.filter (entryPasses s) = passing
  have mem_passing (e : GrantEntry) : e ∈ passing ↔ e ∈ plan.grants ∧ entryPasses s e = true := by
    rw [← hp, List.mem_filter]
  have passingDistinct : (passing.map (·.slot)).Nodup :=
    hp ▸ distinct.sublist (List.filter_sublist.map _)
  have same (d e : GrantEntry) (hd : d ∈ plan.grants) (he : e ∈ plan.grants)
      (h : d.slot = e.slot) : d = e := entry_of_slot plan.grants distinct d e hd he h
  let taken := passing.foldl takeGrant s
  let revoked := endGrants .plan taken plan.revocations
  let winners := (passing.filter (wins s plan.contested)).map (·.slot)
  have kept : poolKept s taken := poolKept.foldl takeGrant takeGrant_kept passing s
  have moved : SourcesMoved s taken := takeGrants_moved passing s
  have grants (k : SlotId) : grantOf (applyPlan plan s) k =
      grantOf (winners.foldl rotateRanks revoked) k := by
    show grantOf ((List.filter _ (plan.grants.filter (entryPasses s))).foldl _
      (endGrants .plan (List.foldl takeGrant s (plan.grants.filter (entryPasses s)))
        plan.revocations)) k = _
    rw [hp]
    simp only [winners, List.foldl_map]
    rfl
  have results (i : FrameId) : (frameOf (applyPlan plan s) i).result = (frameOf revoked i).result := by
    have : frameOf (applyPlan plan s) i = frameOf (winners.foldl rotateRanks revoked) i := by
      show frameOf ((List.filter _ (plan.grants.filter (entryPasses s))).foldl _
        (endGrants .plan (List.foldl takeGrant s (plan.grants.filter (entryPasses s)))
          plan.revocations)) i = _
      rw [hp]
      simp only [winners, List.foldl_map]
      rfl
    rw [this, frameOf_rotations]
  have upToRank (k : SlotId) (g : GrantRecord) (h : grantOf revoked k = g) :
      grantOf (applyPlan plan s) k = { g with rank := (grantOf (applyPlan plan s) k).rank } := by
    rw [grants, ← h]
    exact grantOf_rotations winners revoked k
  have unrevoked (k : SlotId) (h : k ∉ plan.revocations ∨ isGrantRunning taken k = false) :
      grantOf revoked k = grantOf taken k := by
    rw [grantOf_endGrants, if_neg]
    rintro ⟨h1, h2⟩
    rcases h with h | h
    · exact h h1
    · rw [h] at h2; cases h2
  have unrevokedResult (k : SlotId) (i : FrameId) (held : heldFor s k = some i)
      (h : k ∉ plan.revocations) : (frameOf revoked i).result = (frameOf taken i).result := by
    rw [result_endGrants .plan plan.revocations taken k i ((kept.heldFor_eq k).trans held), if_neg]
    exact fun h' => h h'.1
  have takenNamed (e : GrantEntry) (he : e ∈ plan.grants) (h : entryTaken s e) :
      grantOf taken e.slot = grantOf (takeGrant s e) e.slot ∧ ∀ i, heldFor s e.slot = some i →
        (frameOf taken i).result = (frameOf (takeGrant s e) i).result :=
    takeGrants_named passing s e passingDistinct
      ((mem_passing e).mpr ⟨he, ((entryTaken_iff s e).mpr h).1⟩)
  have notTaken (e : GrantEntry) (he : e ∈ plan.grants) (h : ¬entryTaken s e) :
      grantOf taken e.slot = grantOf s e.slot ∧ ∀ i, heldFor s e.slot = some i →
        (frameOf taken i).result = (frameOf s i).result := by
    by_cases passes : entryPasses s e = true
    · have dropped : grantTakes s e ≠ true := fun takes =>
        h ((entryTaken_iff s e).mp ⟨passes, takes⟩)
      obtain ⟨h1, h2⟩ := takeGrants_named passing s e passingDistinct
        ((mem_passing e).mpr ⟨he, passes⟩)
      have none : takeGrant s e = s := by simp [takeGrant, dropped]
      rw [none] at h1 h2
      exact ⟨h1, h2⟩
    · refine takeGrants_unnamed passing s e.slot fun d hd eq => passes ?_
      obtain ⟨hd, hp⟩ := (mem_passing d).mp hd
      exact same d e hd he eq ▸ hp
  have unnamed (k : SlotId) (h : ∀ e, e ∈ plan.grants → e.slot ≠ k) :
      grantOf taken k = grantOf s k ∧ ∀ i, heldFor s k = some i →
        (frameOf taken i).result = (frameOf s i).result :=
    takeGrants_unnamed passing s k fun e he => h e ((mem_passing e).mp he).1
  refine ⟨?_, ?_, ?_, ?_, ?_, ?_⟩
  · intro e he htaken was
    obtain ⟨h1, h2⟩ := takenNamed e he htaken
    have takes := ((entryTaken_iff s e).mpr htaken).2
    refine ⟨upToRank _ _ ?_, fun i held => ?_⟩
    · rw [unrevoked e.slot (.inl (separate e he)), h1, grantOf_takeGrant_self, if_pos takes, was]
      rfl
    · rw [results, unrevokedResult e.slot i held (separate e he), h2 i held,
        result_takeGrant_self s e i held]
      cases (grantOf s e.slot).requestGranted <;> simp [takes, was]
  · intro e he htaken was
    obtain ⟨h1, h2⟩ := takenNamed e he htaken
    have takes := ((entryTaken_iff s e).mpr htaken).2
    refine ⟨upToRank _ _ ?_, fun i held => ?_⟩
    · rw [unrevoked e.slot (.inl (separate e he)), h1, grantOf_takeGrant_self, if_pos takes, was]
      rfl
    · rw [results, unrevokedResult e.slot i held (separate e he), h2 i held,
        result_takeGrant_self s e i held]
      simp [was]
  · intro e he hnot
    obtain ⟨h1, h2⟩ := notTaken e he hnot
    refine ⟨upToRank _ _ ?_, fun i held => ?_⟩
    · rw [unrevoked e.slot (.inl (separate e he)), h1]
    · rw [results, unrevokedResult e.slot i held (separate e he), h2 i held]
  · intro k hk running
    obtain ⟨h1, h2⟩ := unnamed k fun e he eq => separate e he (eq ▸ hk)
    have runs : isGrantRunning taken k = true := by simp [isGrantRunning, h1, running]
    refine ⟨upToRank _ _ ?_, fun i held => ?_⟩
    · rw [grantOf_endGrants, if_pos ⟨hk, runs⟩, endedGrant_eq_grantEnded, h1,
        moved.recordOf_eq, kept.heldFor_eq]
    · rw [results, result_endGrants .plan _ taken k i ((kept.heldFor_eq k).trans held),
        if_pos ⟨hk, runs⟩, h2 i held]
  · intro k hk free
    obtain ⟨h1, h2⟩ := unnamed k hk
    refine upToRank _ _ ?_
    rw [unrevoked k ?_, h1]
    rcases free with free | free
    · exact .inl free
    · exact .inr (by simpa [isGrantRunning, h1] using free)
  · refine ⟨winners, ?_, ?_, ?_⟩
    · rw [show winners = ((plan.grants.filter (entryPasses s)).filter
        (wins s plan.contested)).map (·.slot) by rw [hp]]
      exact ((List.filter_sublist).trans List.filter_sublist).map _
    · intro e he
      have : e.slot ∈ winners ↔ e ∈ passing ∧ wins s plan.contested e = true := by
        simp only [winners, List.mem_map, List.mem_filter]
        constructor
        · rintro ⟨d, ⟨hd, hw⟩, eq⟩
          rw [← same d e ((mem_passing d).mp hd).1 he eq]
          exact ⟨hd, hw⟩
        · intro h
          exact ⟨e, h, rfl⟩
      rw [this, mem_passing]
      simp only [wins, Bool.and_eq_true, Bool.not_eq_true', beq_iff_eq, List.contains_iff_mem,
        entryWins, ← entryTaken_iff]
      constructor
      · rintro ⟨⟨_, p⟩, ⟨⟨w, r⟩, c⟩, m⟩
        exact ⟨⟨p, w⟩, r, c, m⟩
      · rintro ⟨⟨p, w⟩, r, c, m⟩
        exact ⟨⟨he, p⟩, ⟨⟨w, r⟩, c⟩, m⟩
    · intro k
      rw [grants]
      refine rank_rotations winners revoked s (fun j => ?_) k
      rw [rank_endGrants, rank_takeGrants]

end Sys2Proof.Machine
end

