-- ==== Sys2Proof/Laws/Router.lean ====
section
/-! SUPPORT. What each shared operation of the Alert Router does: it changes the alerts alone, and
which kinds are then pending or awaiting clear at which port (R142 to R149). -/

namespace Sys2Proof.Machine

/-! ## Each changes the alerts alone -/

theorem raiseOccurrence_eq (k : AlertKind) (s : State) :
    raiseOccurrence k s = s.setAlerts (raiseOccurrence k s).alerts := rfl

theorem followConditions_eq (before s : State) :
    followConditions before s = s.setAlerts (followConditions before s).alerts := rfl

theorem settleMask_eq (old : Image) (s : State) (p : PortId) :
    settleMask old s p = s.setAlerts (settleMask old s p).alerts := rfl

theorem changeModes_eq (new : Vector TriggerMode 16) (s : State) :
    changeModes new s = s.setAlerts (changeModes new s).alerts := rfl

theorem emptyAlerts_eq (p : PortId) (s : State) :
    emptyAlerts p s = s.setAlerts (emptyAlerts p s).alerts := rfl

theorem settleMasks_foldl_eq (old : Image) (ports : List PortId) (s : State) :
    ports.foldl (settleMask old) s = s.setAlerts (ports.foldl (settleMask old) s).alerts := by
  induction ports generalizing s with
  | nil => rfl
  | cons p rest ih =>
    rw [List.foldl_cons, ih (settleMask old s p)]
    rfl

theorem settleMasks_eq (old : Image) (s : State) :
    settleMasks old s = s.setAlerts (settleMasks old s).alerts := settleMasks_foldl_eq old allPorts s

/-! ## An occurrence -/

@[simp] theorem raiseOccurrence_modes (k : AlertKind) (s : State) :
    (raiseOccurrence k s).alerts.modes = s.alerts.modes := rfl

@[simp] theorem raiseOccurrence_awaiting (k : AlertKind) (s : State) :
    (raiseOccurrence k s).alerts.awaiting = s.alerts.awaiting := rfl

/-- R142: after an occurrence a kind is pending where it was, and the kind itself at every subscribed
port. -/
theorem mem_pendingOf_raiseOccurrence (k : AlertKind) (s : State) (p : PortId) (j : AlertKind) :
    j ∈ pendingOf (raiseOccurrence k s) p ↔
      j ∈ pendingOf s p ∨ (j = k ∧ subscribed s p k = true) := by
  simp [pendingOf, raiseOccurrence]

/-- R142: an occurrence is held for a port only if it is a SETTINGS-LOST not subscribed to. -/
theorem heldLost_raiseOccurrence (k : AlertKind) (s : State) (p : PortId) :
    (raiseOccurrence k s).alerts.heldLost[p] =
      (s.alerts.heldLost[p] || (k == .settingsLost && !subscribed s p k)) := by
  simp [raiseOccurrence]

/-! ## A change of conditions -/

@[simp] theorem followConditions_modes (before s : State) :
    (followConditions before s).alerts.modes = s.alerts.modes := rfl

@[simp] theorem followConditions_awaiting (before s : State) :
    (followConditions before s).alerts.awaiting = s.alerts.awaiting := rfl

@[simp] theorem followConditions_heldLost (before s : State) :
    (followConditions before s).alerts.heldLost = s.alerts.heldLost := rfl

/-- R143: a level-capable kind in LEVEL mode is then pending as its condition says. -/
theorem mem_pendingOf_followConditions_level (before s : State) (p : PortId) (k : AlertKind)
    (hk : levelCapable k = true) (hm : modeOf s k = .level) :
    k ∈ pendingOf (followConditions before s) p ↔ levelPending s p k = true := by
  simp [pendingOf, followConditions, hk, hm]

/-- R142: a level-capable kind in EDGE mode is then pending where it was, and at every subscribed port
if its condition became true. -/
theorem mem_pendingOf_followConditions_edge (before s : State) (p : PortId) (k : AlertKind)
    (hk : levelCapable k = true) (hm : modeOf s k = .edge) :
    k ∈ pendingOf (followConditions before s) p ↔
      k ∈ pendingOf s p ∨
        (condition before k = false ∧ condition s k = true ∧ subscribed s p k = true) := by
  simp [pendingOf, followConditions, hk, hm, and_assoc]

/-- An edge-only kind has no condition to follow. -/
theorem mem_pendingOf_followConditions_edgeOnly (before s : State) (p : PortId) (k : AlertKind)
    (hk : levelCapable k = false) :
    k ∈ pendingOf (followConditions before s) p ↔ k ∈ pendingOf s p := by
  simp [pendingOf, followConditions, hk]

/-! ## A change of a mask -/

@[simp] theorem settleMask_modes (old : Image) (s : State) (p : PortId) :
    (settleMask old s p).alerts.modes = s.alerts.modes := rfl

@[simp] theorem settleMask_awaiting (old : Image) (s : State) (p : PortId) :
    (settleMask old s p).alerts.awaiting = s.alerts.awaiting := rfl

/-- R146: a mask settled at one port leaves the pending sets of the others. -/
theorem pendingOf_settleMask_other (old : Image) (s : State) (p q : PortId) (h : p ≠ q) :
    pendingOf (settleMask old s p) q = pendingOf s q := by
  simpa [pendingOf, settleMask] using getElem_modifyAt_other _ p q _ h

/-- R146: a kind whose bit did not change stays as it is. -/
theorem mem_pendingOf_settleMask_same (old : Image) (s : State) (p : PortId) (k : AlertKind)
    (h : maskHas old p k = subscribed s p k) :
    k ∈ pendingOf (settleMask old s p) p ↔ k ∈ pendingOf s p := by
  simp [pendingOf, settleMask, h]

/-- R146: a kind whose bit was cleared leaves the pending set. -/
theorem not_mem_pendingOf_settleMask (old : Image) (s : State) (p : PortId) (k : AlertKind)
    (h : maskHas old p k = true) (hs : subscribed s p k = false) :
    k ∉ pendingOf (settleMask old s p) p := by
  simp [pendingOf, settleMask, h, hs]

/-- R146: a LEVEL kind whose bit was set is pending as R143 says. -/
theorem mem_pendingOf_settleMask_level (old : Image) (s : State) (p : PortId) (k : AlertKind)
    (h : maskHas old p k = false) (hs : subscribed s p k = true) (hm : modeOf s k = .level) :
    k ∈ pendingOf (settleMask old s p) p ↔ levelPending s p k = true := by
  simp [pendingOf, settleMask, h, hs, hm]

theorem settleMasks_foldl_modes (old : Image) (ports : List PortId) (s : State) :
    (ports.foldl (settleMask old) s).alerts.modes = s.alerts.modes := by
  induction ports generalizing s with
  | nil => rfl
  | cons p rest ih => rw [List.foldl_cons, ih]; rfl

theorem settleMasks_foldl_awaiting (old : Image) (ports : List PortId) (s : State) :
    (ports.foldl (settleMask old) s).alerts.awaiting = s.alerts.awaiting := by
  induction ports generalizing s with
  | nil => rfl
  | cons p rest ih => rw [List.foldl_cons, ih]; rfl

@[simp] theorem settleMasks_modes (old : Image) (s : State) :
    (settleMasks old s).alerts.modes = s.alerts.modes := settleMasks_foldl_modes old allPorts s

@[simp] theorem settleMasks_awaiting (old : Image) (s : State) :
    (settleMasks old s).alerts.awaiting = s.alerts.awaiting :=
  settleMasks_foldl_awaiting old allPorts s

/-! ## A change of the modes, and PORT-RESET -/

@[simp] theorem changeModes_modes (new : Vector TriggerMode 16) (s : State) :
    (changeModes new s).alerts.modes = new := rfl

@[simp] theorem emptyAlerts_modes (p : PortId) (s : State) :
    (emptyAlerts p s).alerts.modes = s.alerts.modes := rfl

/-- R147: a kind whose mode changed is evaluated afresh; any other keeps its place. -/
theorem mem_pendingOf_changeModes (new : Vector TriggerMode 16) (s : State) (p : PortId)
    (k : AlertKind) :
    k ∈ pendingOf (changeModes new s) p ↔
      if s.alerts.modes[k.number] = new[k.number] then k ∈ pendingOf s p
      else new[k.number] = .level ∧ subscribed s p k = true ∧ condition s k = true := by
  by_cases h : s.alerts.modes[k.number] = new[k.number]
  · have h' : s.alerts.modes[k.number.val] = new[k.number.val] := h
    simp [pendingOf, changeModes, h']
  · have h' : s.alerts.modes[k.number.val] ≠ new[k.number.val] := h
    simp [pendingOf, changeModes, h', and_assoc]

/-- R147: a kind whose mode changed awaits clear nowhere. -/
theorem mem_awaitingOf_changeModes (new : Vector TriggerMode 16) (s : State) (p : PortId)
    (k : AlertKind) :
    k ∈ awaitingOf (changeModes new s) p ↔
      k ∈ awaitingOf s p ∧ s.alerts.modes[k.number] = new[k.number] := by
  simp [awaitingOf, changeModes]

/-- R149: PORT-RESET leaves pending at its port the LEVEL kinds that are subscribed to and true. -/
theorem mem_pendingOf_emptyAlerts (p : PortId) (s : State) (k : AlertKind) :
    k ∈ pendingOf (emptyAlerts p s) p ↔
      modeOf s k = .level ∧ subscribed s p k = true ∧ condition s k = true := by
  simp [pendingOf, emptyAlerts, and_assoc]

theorem awaitingOf_emptyAlerts (p : PortId) (s : State) : awaitingOf (emptyAlerts p s) p = [] := by
  simp [awaitingOf, emptyAlerts]

theorem emptyAlerts_other (p q : PortId) (s : State) (h : p ≠ q) :
    pendingOf (emptyAlerts p s) q = pendingOf s q ∧
      awaitingOf (emptyAlerts p s) q = awaitingOf s q := by
  have h' : p.val ≠ q.val := fun e => h (Fin.ext e)
  simp [pendingOf, awaitingOf, emptyAlerts, h']

/-! ## ALERT-TAKE and ALERT-DONE -/

/-- R144: a taken kind leaves the pending set of its port. -/
theorem mem_pendingOf_takeKind (s : State) (p : PortId) (k j : AlertKind) :
    j ∈ pendingOf (takeKind s p k) p ↔ j ∈ pendingOf s p ∧ j ≠ k := by
  simp [pendingOf, takeKind]

/-- R144: a taken LEVEL kind awaits clear at its port. -/
theorem mem_awaitingOf_takeKind (s : State) (p : PortId) (k j : AlertKind) :
    j ∈ awaitingOf (takeKind s p k) p ↔ j ∈ awaitingOf s p ∨ (j = k ∧ modeOf s k = .level) := by
  simp [awaitingOf, takeKind]

/-- R145: an acknowledged kind is pending again if it is subscribed to and true. -/
theorem mem_pendingOf_acknowledgeKind (s : State) (p : PortId) (k j : AlertKind) :
    j ∈ pendingOf (acknowledgeKind s p k) p ↔
      j ∈ pendingOf s p ∨ (j = k ∧ subscribed s p k = true ∧ condition s k = true) := by
  simp [pendingOf, acknowledgeKind, and_assoc]

/-- R145: an acknowledged kind awaits clear no more. -/
theorem mem_awaitingOf_acknowledgeKind (s : State) (p : PortId) (k j : AlertKind) :
    j ∈ awaitingOf (acknowledgeKind s p k) p ↔ j ∈ awaitingOf s p ∧ j ≠ k := by
  simp [awaitingOf, acknowledgeKind]

end Sys2Proof.Machine
end

