-- ==== Sys2Proof/Laws/Endings.lean ====
section
/-! SUPPORT. What the ends of requests do to frames and sources (R45, R80), the target-reached check
(R49, R81) and the discarding of requests by PORT-RESET (R84). -/

namespace Sys2Proof.Machine

/-! ## One request -/

/-- R80: a frame after its report. -/
def reportedFrame (outcome : FrameOutcome) (period : Word) (fr : Frame) : Frame :=
  { fr with state := .reported
            result := { fr.result with outcome := outcome, endPeriod := period } }

@[simp] theorem frameOf_setReplyQueue (s : State) (p : PortId) (l : List FrameId) (i : FrameId) :
    frameOf (setReplyQueue s p l) i = frameOf s i := rfl

@[simp] theorem grantOf_setReplyQueue (s : State) (p : PortId) (l : List FrameId) (k : SlotId) :
    grantOf (setReplyQueue s p l) k = grantOf s k := rfl

@[simp] theorem frameOf_releaseSource (s : State) (k : SlotId) (i : FrameId) :
    frameOf (releaseSource s k) i = frameOf s i := by
  unfold releaseSource
  split <;> rfl

theorem frameOf_reportFrame (outcome : FrameOutcome) (s : State) (i j : FrameId) :
    frameOf (reportFrame outcome s i) j =
      if i = j then reportedFrame outcome s.planner.period (frameOf s j) else frameOf s j := by
  unfold reportFrame
  dsimp only
  by_cases h : i = j
  · subst h
    split <;> simp [reportedFrame]
  · split <;> simp [h, frameOf_modFrame_other s i j _ h]

@[simp] theorem grantOf_reportFrame (outcome : FrameOutcome) (s : State) (i : FrameId)
    (k : SlotId) : grantOf (reportFrame outcome s i) k = grantOf s k := by
  unfold reportFrame
  dsimp only
  split <;> rfl

/-- R45: the source whose request ends. -/
theorem grantOf_releaseSource (s : State) (j k : SlotId) : grantOf (releaseSource s j) k =
    if j = k ∧ isGrantWaiting s k = true then { grantOf s k with state := .idle }
    else grantOf s k := by
  unfold releaseSource
  by_cases h : j = k
  · subst h
    split <;> simp_all
  · split <;> simp [h, grantOf_modGrant_other s j k _ h]

theorem frameOf_endRequest (outcome : FrameOutcome) (s : State) (i j : FrameId) :
    frameOf (endRequest outcome s i) j =
      if i = j ∧ isHeld s j = true then reportedFrame outcome s.planner.period (frameOf s j)
      else frameOf s j := by
  unfold endRequest
  by_cases held : isHeld s i = true
  · rw [if_pos held]
    have : (i = j ∧ isHeld s j = true) ↔ i = j := ⟨fun h => h.1, fun h => ⟨h, h ▸ held⟩⟩
    simp only [this]
    split <;> simp [frameOf_reportFrame]
  · rw [if_neg held, if_neg]
    rintro ⟨rfl, h⟩
    exact held h

theorem heldSlot_held (s : State) (i : FrameId) (k : SlotId) (h : heldSlot s i = some k) :
    isHeld s i = true ∧ kindNamesSource (kindOf s i) = true := by
  unfold heldSlot at h
  split at h
  · rename_i both
    simpa using both
  · cases h

theorem grantOf_endRequest (outcome : FrameOutcome) (s : State) (i : FrameId) (k : SlotId) :
    grantOf (endRequest outcome s i) k =
      if heldSlot s i = some k ∧ isGrantWaiting s k = true then
        { grantOf s k with state := .idle }
      else grantOf s k := by
  unfold endRequest
  by_cases held : isHeld s i = true
  · rw [if_pos held]
    split
    · rename_i none
      simp [none]
    · rename_i j some
      have same : isGrantWaiting (reportFrame outcome s i) k = isGrantWaiting s k := by
        simp [isGrantWaiting]
      rw [grantOf_releaseSource, same, grantOf_reportFrame, some]
      simp
  · rw [if_neg held, if_neg]
    exact fun h => held (heldSlot_held s i k h.1).1

theorem endRequest_period (outcome : FrameOutcome) (s : State) (i : FrameId) :
    (endRequest outcome s i).planner.period = s.planner.period := by
  rw [(endRequest_moved outcome s i).planner_eq]

theorem heldSlot_of_frame (s t : State) (i : FrameId) (h : frameOf t i = frameOf s i) :
    heldSlot t i = heldSlot s i := by
  simp [heldSlot, isHeld, kindOf, h]

/-! ## Several requests -/

/-- R80: the frames and the sources after the ends of several requests. -/
theorem endRequests_list (outcome : FrameId → FrameOutcome) (l : List FrameId) (s : State)
    (distinct : l.Nodup) :
    (∀ i, frameOf (l.foldl (fun u j => endRequest (outcome j) u j) s) i =
      if i ∈ l ∧ isHeld s i = true then
        reportedFrame (outcome i) s.planner.period (frameOf s i)
      else frameOf s i) ∧
    ∀ k, grantOf (l.foldl (fun u j => endRequest (outcome j) u j) s) k =
      if (∃ i, i ∈ l ∧ heldSlot s i = some k) ∧ isGrantWaiting s k = true then
        { grantOf s k with state := .idle }
      else grantOf s k := by
  induction l generalizing s with
  | nil => simp
  | cons j rest ih =>
    rw [List.nodup_cons] at distinct
    obtain ⟨frames, grants⟩ := ih (endRequest (outcome j) s j) distinct.2
    refine ⟨fun i => ?_, fun k => ?_⟩
    · rw [List.foldl_cons, frames, endRequest_period, frameOf_endRequest]
      by_cases hij : j = i
      · subst hij
        simp [distinct.1]
      · have same : frameOf (endRequest (outcome j) s j) i = frameOf s i := by
          rw [frameOf_endRequest, if_neg fun h => hij h.1]
        have held : isHeld (endRequest (outcome j) s j) i = isHeld s i := by
          simp only [isHeld, same]
        have other : ¬i = j := fun h => hij h.symm
        simp [hij, other, held]
    · rw [List.foldl_cons, grants]
      have others (i : FrameId) (hi : i ∈ rest) :
          heldSlot (endRequest (outcome j) s j) i = heldSlot s i := by
        apply heldSlot_of_frame
        rw [frameOf_endRequest, if_neg]
        rintro ⟨rfl, _⟩
        exact distinct.1 hi
      have named : (∃ i, i ∈ rest ∧ heldSlot (endRequest (outcome j) s j) i = some k) ↔
          ∃ i, i ∈ rest ∧ heldSlot s i = some k := by
        constructor <;> rintro ⟨i, hi, h⟩
        · exact ⟨i, hi, (others i hi) ▸ h⟩
        · exact ⟨i, hi, (others i hi).trans h⟩
      simp only [named]
      have waiting : isGrantWaiting (endRequest (outcome j) s j) k =
          (isGrantWaiting s k && !decide (heldSlot s j = some k)) := by
        unfold isGrantWaiting
        rw [grantOf_endRequest]
        by_cases h : heldSlot s j = some k <;> by_cases w : (grantOf s k).state = .waiting <;>
          simp [h, w, isGrantWaiting]
      rw [waiting, grantOf_endRequest]
      by_cases h : heldSlot s j = some k <;> by_cases w : isGrantWaiting s k = true <;>
        simp [h, w]

/-- R80: a frame after the ends of the requests of a set. -/
theorem frameOf_endRequests (outcome : FrameId → FrameOutcome) (s : State) (ended : FrameId → Bool)
    (i : FrameId) : frameOf (endRequests outcome s ended) i =
      if ended i = true ∧ isHeld s i = true then
        reportedFrame (outcome i) s.planner.period (frameOf s i)
      else frameOf s i := by
  have := (endRequests_list outcome (allFrames.filter ended) s
    ((List.nodup_finRange 48).filter _)).1 i
  simpa [endRequests] using this

/-- R45, R80: a source after the ends of the requests of a set. -/
theorem grantOf_endRequests (outcome : FrameId → FrameOutcome) (s : State) (ended : FrameId → Bool)
    (k : SlotId) : grantOf (endRequests outcome s ended) k =
      if (∃ i, ended i = true ∧ heldSlot s i = some k) ∧ isGrantWaiting s k = true then
        { grantOf s k with state := .idle }
      else grantOf s k := by
  have := (endRequests_list outcome (allFrames.filter ended) s
    ((List.nodup_finRange 48).filter _)).2 k
  simpa [endRequests] using this

/-! ## The target-reached check -/

theorem holdsAlone.heldFor_eq {s : State} {i : FrameId} {k : SlotId} (h : holdsAlone s i k) :
    heldFor s k = some i := by
  have some := (heldFor_isSome s k).mpr ⟨i, h.1⟩
  obtain ⟨j, hj⟩ := Option.isSome_iff_exists.mp some
  rw [hj, h.2 j (heldSlot_of_heldFor s k j hj)]

/-- R75: a request that stands in order is alone for its slot. -/
theorem RequestsMatchSlots.holdsAlone {s : State} (h : RequestsMatchSlots s) {i : FrameId}
    {k : SlotId} (held : heldSlot s i = some k) : holdsAlone s i k :=
  ⟨held, fun j other => h.1 j i k other held⟩

/-- R49, R81: a RUNNING source among the slots that have reached their target. -/
theorem endAtTarget_reached (s : State) (slots : List SlotId) (i : FrameId) (k : SlotId)
    (mem : k ∈ slots) (running : (grantOf s k).state = .running) (alone : holdsAlone s i k) :
    endedAtTarget s (endAtTarget s slots) i k := by
  have runs : isGrantRunning s k = true := by simp [isGrantRunning, running]
  have kept := endGrants_kept .target s slots
  have held := alone.heldFor_eq
  have result := result_endGrants .target slots s k i held
  rw [if_pos ⟨mem, runs⟩] at result
  have grant := grantOf_endGrants .target slots s k
  rw [if_pos ⟨mem, runs⟩, held, endedGrant_eq_grantEnded, Option.isSome_some] at grant
  have isHeldThen : isHeld (endGrants .target s slots) i = true := by
    rw [kept.isHeld_eq]
    exact (heldSlot_held s i k alone.1).1
  have period : (endGrants .target s slots).planner.period = s.planner.period := by
    rw [(endGrants_moved .target s slots).planner_eq]
  have slotThen : heldSlot (endGrants .target s slots) i = some k := by
    rw [kept.heldSlot_eq]
    exact alone.1
  have only (j : FrameId) (h : heldSlot (endGrants .target s slots) j = some k) : j = i :=
    alone.2 j ((kept.heldSlot_eq j).symm.trans h)
  refine ⟨fun heat => ?_, fun standing => ?_⟩
  · have isHeat : kindOf s i = some .heat := by simp [kindOf, heat, requestKind]
    unfold endAtTarget
    rw [frameOf_endRequests, grantOf_endRequests, isHeldThen, period]
    have ends : isHeatOf s slots i = true := by
      simp [isHeatOf, isHeat, alone.1, mem]
    refine ⟨?_, ?_, ?_⟩
    · rw [if_pos ⟨ends, rfl⟩]; rfl
    · rw [if_pos ⟨ends, rfl⟩, reportedFrame, result]
    · by_cases waits : isGrantWaiting (endGrants .target s slots) k = true
      · rw [if_pos ⟨⟨i, ends, slotThen⟩, waits⟩, grant]
        rw [isGrantWaiting, grant] at waits
        unfold grantEnded at waits ⊢
        split at waits
        · simp at waits
        · simp [*]
      · rw [if_neg fun h => waits h.2, grant]
        rw [isGrantWaiting, grant] at waits
        unfold grantEnded at waits ⊢
        split at waits
        · simp [*]
        · simp at waits
  · have isStanding : kindOf s i = some .standing := by simp [kindOf, standing, requestKind]
    unfold endAtTarget
    have stays : isHeatOf s slots i = false := by
      simp [isHeatOf, isStanding]
    unfold endedHolding
    rw [frameOf_endRequests, grantOf_endRequests, if_neg (by rw [stays]; simp), if_neg]
    · exact ⟨(kept.2.2.2.2 i).1, result, grant⟩
    · rintro ⟨⟨j, hj, slot⟩, _⟩
      rw [only j slot, stays] at hj
      cases hj

/-- R49: a slot that has not reached its target keeps its record. -/
theorem grantOf_endAtTarget_other (s : State) (slots : List SlotId) (k : SlotId) (h : k ∉ slots) :
    grantOf (endAtTarget s slots) k = grantOf s k := by
  have kept := endGrants_kept .target s slots
  unfold endAtTarget
  rw [grantOf_endRequests, if_neg, grantOf_endGrants, if_neg fun h' => h h'.1]
  rintro ⟨⟨j, hj, slot⟩, _⟩
  rw [kept.heldSlot_eq] at slot
  simp [isHeatOf, slot, h] at hj

/-- R47: the ends of grants reach no frame but those held for the slots. -/
theorem frameOf_endGrants_other (cause : EndCause) (slots : List SlotId) (s : State) (i : FrameId)
    (h : ∀ k, heldSlot s i = some k → k ∉ slots) :
    frameOf (endGrants cause s slots) i = frameOf s i := by
  induction slots generalizing s with
  | nil => rfl
  | cons j rest ih =>
    have kept := endGrant_kept cause s j
    have rests := ih (endGrant cause s j) fun k hk mem =>
      h k ((kept.heldSlot_eq i).symm.trans hk) (List.mem_cons_of_mem j mem)
    refine rests.trans ?_
    unfold endGrant recordCause
    split
    · rw [frameOf_modGrant]
      split
      · rfl
      · rename_i m hm
        refine frameOf_modFrame_other s m i _ ?_
        rintro rfl
        exact h j (heldSlot_of_heldFor s j m hm) (List.mem_cons_self ..)
    · rfl

/-- R49, R81: the target-reached check reaches no frame but those held for the slots. -/
theorem frameOf_endAtTarget_other (s : State) (slots : List SlotId) (i : FrameId)
    (h : ∀ k, heldSlot s i = some k → k ∉ slots) :
    frameOf (endAtTarget s slots) i = frameOf s i := by
  unfold endAtTarget
  rw [frameOf_endRequests, if_neg, frameOf_endGrants_other .target slots s i h]
  rintro ⟨ends, _⟩
  cases hs : heldSlot s i with
  | none => simp [isHeatOf, hs] at ends
  | some k => simp [isHeatOf, hs, h k hs] at ends

/-- R50: a revocation leaves the source that is not RUNNING as it was. -/
theorem grantOf_revokeAll_other (cause : EndCause) (s : State) (k : SlotId)
    (h : (grantOf s k).state ≠ .running) : grantOf (revokeAll cause s) k = grantOf s k := by
  unfold revokeAll
  rw [grantOf_endGrants, if_neg fun h' => h (by simpa [isGrantRunning] using h'.2)]

/-- R50: a revocation reaches no frame but those held for RUNNING sources. -/
theorem frameOf_revokeAll_other (cause : EndCause) (s : State) (i : FrameId)
    (h : ∀ k, heldSlot s i = some k → (grantOf s k).state ≠ .running) :
    frameOf (revokeAll cause s) i = frameOf s i := by
  refine frameOf_endGrants_other cause _ s i fun k hk mem => h k hk ?_
  simpa [runningSlots, isGrantRunning] using mem

/-- R15, R17, R49, R120: a scan completion reaches no source that is not RUNNING. -/
theorem grantOf_neighboursTake_other (scan : Scan) (s : State) (k : SlotId)
    (h : (grantOf s k).state ≠ .running) : grantOf (neighboursTake scan s) k = grantOf s k := by
  have outside (p : SlotId → Bool) : k ∉ allSlots.filter fun j => targetReached s j && p j := by
    simp [targetReached, isGrantRunning, h]
  have atTarget (overtemp : Bool) (p : SlotId → Bool) :
      grantOf (endAtTarget (s.setSafety { s.safety with overtemp := overtemp })
        (allSlots.filter fun j => targetReached s j && p j)) k = grantOf s k :=
    grantOf_endAtTarget_other _ _ k (outside p)
  unfold neighboursTake
  split
  · exact grantOf_revokeAll_other .modelNone s k h
  · dsimp only
    split
    · refine (grantOf_revokeAll_other _ _ k ?_).trans (atTarget _ _)
      rw [atTarget]
      exact h
    · exact atTarget _ _

/-- R15, R17, R49, R120: a scan completion reaches no frame but those held for RUNNING sources. -/
theorem frameOf_neighboursTake_other (scan : Scan) (s : State) (i : FrameId)
    (h : ∀ k, heldSlot s i = some k → (grantOf s k).state ≠ .running) :
    frameOf (neighboursTake scan s) i = frameOf s i := by
  have outside (p : SlotId → Bool) (k : SlotId) (hk : heldSlot s i = some k) :
      k ∉ allSlots.filter fun j => targetReached s j && p j := by
    simp [targetReached, isGrantRunning, h k hk]
  have atTarget (overtemp : Bool) (p : SlotId → Bool) :
      frameOf (endAtTarget (s.setSafety { s.safety with overtemp := overtemp })
        (allSlots.filter fun j => targetReached s j && p j)) i = frameOf s i :=
    frameOf_endAtTarget_other (s.setSafety _) _ i (outside p)
  unfold neighboursTake
  split
  · exact frameOf_revokeAll_other .modelNone s i h
  · dsimp only
    split
    · refine (frameOf_revokeAll_other _ _ i fun k hk => ?_).trans (atTarget _ _)
      rw [heldSlot_of_frame s _ i (atTarget _ _)] at hk
      rw [grantOf_endAtTarget_other _ _ _ (outside _ k hk)]
      exact h k hk
    · exact atTarget _ _

/-- R15, R46: a scan completion before its first period start: what the neighbours do, then the alerts
and the draw. -/
theorem scanApplied_eq (scan : Scan) (s : State) : ∃ alerts, scanApplied scan s =
    ((neighboursTake scan (applyScan scan s)).setAlerts alerts).nextDraw :=
  ⟨_, congrArg State.nextDraw (followConditions_eq s _)⟩

/-- R15, R17, R49, R120: a scan completion leaves the source that is not RUNNING as it was. -/
theorem grantOf_scanApplied_other (scan : Scan) (s : State) (k : SlotId)
    (h : (grantOf s k).state ≠ .running) : grantOf (scanApplied scan s) k = grantOf s k := by
  obtain ⟨alerts, eq⟩ := scanApplied_eq scan s
  have taken := grantOf_neighboursTake_other scan (applyScan scan s) k h
  simp only [grantOf, eq, State.nextDraw_table, State.setAlerts_table] at taken ⊢
  exact taken

/-- R15, R17, R49, R120: a scan completion reaches no frame but those held for RUNNING sources. -/
theorem frameOf_scanApplied_other (scan : Scan) (s : State) (i : FrameId)
    (h : ∀ k, heldSlot s i = some k → (grantOf s k).state ≠ .running) :
    frameOf (scanApplied scan s) i = frameOf s i := by
  obtain ⟨alerts, eq⟩ := scanApplied_eq scan s
  have taken := frameOf_neighboursTake_other scan (applyScan scan s) i h
  simp only [frameOf, eq, State.nextDraw_pool, State.setAlerts_pool] at taken ⊢
  exact taken

/-! ## PORT-RESET -/

/-- R84: what the discarding of a slot's request does to the sources and the frames of others. -/
theorem sourceDiscarded_moved (s : State) (k : SlotId) : SourcesMoved s (sourceDiscarded s k) :=
  (endGrant_moved .requestEnd s k).trans (releaseSource_moved _ k)

/-- R84: with no request held for the slot, its frames are left as they were. -/
theorem frameOf_sourceDiscarded (s : State) (k : SlotId) (none : heldFor s k = none)
    (i : FrameId) : frameOf (sourceDiscarded s k) i = frameOf s i := by
  unfold sourceDiscarded endGrant recordCause
  rw [frameOf_releaseSource]
  split
  · simp [none]
  · rfl

/-- R47, R84: with no request held for it, a RUNNING source leaves for RESTING or IDLE and a WAITING one
for IDLE. -/
theorem grantOf_sourceDiscarded (s : State) (k : SlotId) (none : heldFor s k = none) :
    grantOf (sourceDiscarded s k) k =
      if isGrantRunning s k = true then grantEnded (recordOf s k).minRest false (grantOf s k)
      else if isGrantWaiting s k = true then { grantOf s k with state := .idle }
      else grantOf s k := by
  unfold sourceDiscarded
  rw [grantOf_releaseSource]
  have waits : isGrantWaiting (endGrant .requestEnd s k) k =
      (isGrantWaiting s k && !isGrantRunning s k) := by
    unfold isGrantWaiting
    rw [grantOf_endGrant_self, none]
    by_cases running : isGrantRunning s k = true
    · rw [if_pos running, endedGrant_eq_grantEnded, running]
      unfold grantEnded
      split <;> simp
    · simp [running]
  rw [waits, grantOf_endGrant_self, none, endedGrant_eq_grantEnded]
  by_cases running : isGrantRunning s k = true <;> by_cases waiting : isGrantWaiting s k = true <;>
    simp [running, waiting]

end Sys2Proof.Machine
end

