-- ==== Sys2Proof/Laws/PerInstr.lean ====
section
/-! SUPPORT. The family CommandLength: the bytes a partner sends for a command are its command byte and
the argument bytes that R183 gives it, one lemma per command. -/

namespace Sys2Proof.Laws

/-- R183: the argument bytes of a command, its count byte and data among them; 0 for an event. -/
def argumentLength : Instr → Nat
  | .fill _ _ _ data => 3 + data.length
  | .setWrite _ data => 1 + data.length
  | .select _ _ => 2
  | .frameRead _ _ => 1
  | .post _ _ => 1
  | .giveBack _ _ => 1
  | .release _ _ => 1
  | .alertDone _ _ => 1
  | .setRead _ _ => 1
  | .sourceRead _ _ => 1
  | _ => 0

/-- The family's statement of one command. -/
def CommandLength.Statement (i : Instr) : Prop :=
  ∀ p bytes, transactionBytes i = some (p, bytes) → bytes.length = 1 + argumentLength i

/-- The command and argument bytes of a transaction have the length given with them. -/
theorem length_of_transaction {p q : PortId} {sent bytes : List Byte} {n : Nat}
    (h : some (p, sent) = some (q, bytes)) (hn : sent.length = 1 + n) : bytes.length = 1 + n := by
  cases h
  exact hn

theorem CommandLength.powerOnReset : CommandLength.Statement .powerOnReset :=
  fun _ _ h => nomatch h

theorem CommandLength.resetPinReset : CommandLength.Statement .resetPinReset :=
  fun _ _ h => nomatch h

theorem CommandLength.supplyLowReset : CommandLength.Statement .supplyLowReset :=
  fun _ _ h => nomatch h

theorem CommandLength.restartReset : CommandLength.Statement .restartReset :=
  fun _ _ h => nomatch h

theorem CommandLength.startUpLoad : CommandLength.Statement .startUpLoad :=
  fun _ _ h => nomatch h

theorem CommandLength.scanStart : CommandLength.Statement .scanStart :=
  fun _ _ h => nomatch h

theorem CommandLength.probeRead (low high check : Byte) :
    CommandLength.Statement (.probeRead low high check) :=
  fun _ _ h => nomatch h

theorem CommandLength.answerWindowClose : CommandLength.Statement .answerWindowClose :=
  fun _ _ h => nomatch h

theorem CommandLength.periodStart : CommandLength.Statement .periodStart :=
  fun _ _ h => nomatch h

theorem CommandLength.planCompletion : CommandLength.Statement .planCompletion :=
  fun _ _ h => nomatch h

theorem CommandLength.latePlanCompletion : CommandLength.Statement .latePlanCompletion :=
  fun _ _ h => nomatch h

theorem CommandLength.intakeTake (port : PortId) : CommandLength.Statement (.intakeTake port) :=
  fun _ _ h => nomatch h

theorem CommandLength.inputPinChange (line : Line) (level : Level) :
    CommandLength.Statement (.inputPinChange line level) :=
  fun _ _ h => nomatch h

theorem CommandLength.settleExpiry (line : Line) : CommandLength.Statement (.settleExpiry line) :=
  fun _ _ h => nomatch h

theorem CommandLength.storeCompletion (readBack : Image) :
    CommandLength.Statement (.storeCompletion readBack) :=
  fun _ _ h => nomatch h

theorem CommandLength.transactionDiscarded (port : PortId) :
    CommandLength.Statement (.transactionDiscarded port) :=
  fun _ _ h => nomatch h

theorem CommandLength.badCommand (port : PortId) (code : Byte) :
    CommandLength.Statement (.badCommand port code) :=
  fun _ _ h => length_of_transaction h rfl

theorem CommandLength.ident (port : PortId) : CommandLength.Statement (.ident port) :=
  fun _ _ h => length_of_transaction h rfl

theorem CommandLength.status (port : PortId) : CommandLength.Statement (.status port) :=
  fun _ _ h => length_of_transaction h rfl

theorem CommandLength.take (port : PortId) : CommandLength.Statement (.take port) :=
  fun _ _ h => length_of_transaction h rfl

theorem CommandLength.fill (port : PortId) (index offset : Byte) (data : List Byte) :
    CommandLength.Statement (.fill port index offset data) :=
  fun _ _ h =>
  length_of_transaction h (by simp [argumentLength]; omega)

theorem CommandLength.frameRead (port : PortId) (index : Byte) :
    CommandLength.Statement (.frameRead port index) :=
  fun _ _ h => length_of_transaction h rfl

theorem CommandLength.post (port : PortId) (index : Byte) :
    CommandLength.Statement (.post port index) :=
  fun _ _ h => length_of_transaction h rfl

theorem CommandLength.giveBack (port : PortId) (index : Byte) :
    CommandLength.Statement (.giveBack port index) :=
  fun _ _ h => length_of_transaction h rfl

theorem CommandLength.replyTake (port : PortId) : CommandLength.Statement (.replyTake port) :=
  fun _ _ h => length_of_transaction h rfl

theorem CommandLength.release (port : PortId) (index : Byte) :
    CommandLength.Statement (.release port index) :=
  fun _ _ h => length_of_transaction h rfl

theorem CommandLength.alertTake (port : PortId) : CommandLength.Statement (.alertTake port) :=
  fun _ _ h => length_of_transaction h rfl

theorem CommandLength.alertDone (port : PortId) (kind : Byte) :
    CommandLength.Statement (.alertDone port kind) :=
  fun _ _ h => length_of_transaction h rfl

theorem CommandLength.select (port : PortId) (index : Word) :
    CommandLength.Statement (.select port index) :=
  fun _ _ h => length_of_transaction h rfl

theorem CommandLength.setRead (port : PortId) (n : Byte) :
    CommandLength.Statement (.setRead port n) :=
  fun _ _ h => length_of_transaction h rfl

theorem CommandLength.setWrite (port : PortId) (data : List Byte) :
    CommandLength.Statement (.setWrite port data) :=
  fun _ _ h =>
  length_of_transaction h (by simp [argumentLength]; omega)

theorem CommandLength.setupEnter (port : PortId) : CommandLength.Statement (.setupEnter port) :=
  fun _ _ h => length_of_transaction h rfl

theorem CommandLength.setupExit (port : PortId) : CommandLength.Statement (.setupExit port) :=
  fun _ _ h => length_of_transaction h rfl

theorem CommandLength.setupAbandon (port : PortId) : CommandLength.Statement (.setupAbandon port) :=
  fun _ _ h => length_of_transaction h rfl

theorem CommandLength.store (port : PortId) : CommandLength.Statement (.store port) :=
  fun _ _ h => length_of_transaction h rfl

theorem CommandLength.restart (port : PortId) : CommandLength.Statement (.restart port) :=
  fun _ _ h => length_of_transaction h rfl

theorem CommandLength.portReset (port : PortId) : CommandLength.Statement (.portReset port) :=
  fun _ _ h => length_of_transaction h rfl

theorem CommandLength.modelRead (port : PortId) : CommandLength.Statement (.modelRead port) :=
  fun _ _ h => length_of_transaction h rfl

theorem CommandLength.sourceRead (port : PortId) (slot : Byte) :
    CommandLength.Statement (.sourceRead port slot) :=
  fun _ _ h => length_of_transaction h rfl

theorem CommandLength.secondsRemainingTick : CommandLength.Statement .secondsRemainingTick :=
  fun _ _ h => nomatch h

theorem CommandLength.resetPinRelease : CommandLength.Statement .resetPinRelease :=
  fun _ _ h => nomatch h

theorem CommandLength.supplyRecovery : CommandLength.Statement .supplyRecovery :=
  fun _ _ h => nomatch h

end Sys2Proof.Laws
end

