-- ==== Sys2Proof/Laws/Plans.lean ====
section
/-! SUPPORT. What the planner, a period start, a scan completion, the end of setup and an input line
leave as they were (R82, R88, R92, R95, R104, R108, R123, R131, R159, R174). -/

namespace Sys2Proof.Machine

/-! ## The planner -/

theorem beginFullPlan_eq (s : State) :
    beginFullPlan s = s.setPlanner (beginFullPlan s).planner := rfl

theorem beginMarkedLatePlan_eq (s : State) :
    beginMarkedLatePlan s = s.setPlanner (beginMarkedLatePlan s).planner := by
  unfold beginMarkedLatePlan
  split
  · split <;> rfl
  · rfl

theorem planEnded_eq (s : State) : planEnded s = s.setPlanner (planEnded s).planner := rfl

/-- R108: whatever follows, the mark is clear. -/
theorem beginMarkedLatePlan_lateMark (s : State) :
    (beginMarkedLatePlan s).planner.lateMark = false := by
  unfold beginMarkedLatePlan
  split
  · split <;> rfl
  · rename_i h
    simpa using h

/-- R108: with the mark clear no late plan begins. -/
theorem beginMarkedLatePlan_unmarked (s : State) (h : s.planner.lateMark = false) :
    beginMarkedLatePlan s = s := by
  simp [beginMarkedLatePlan, h]

/-- R92, R107: an ask reaches the planner alone. -/
theorem latePlanAsk_eq (s : State) : latePlanAsk s = s.setPlanner (latePlanAsk s).planner := by
  unfold latePlanAsk
  split
  · exact beginMarkedLatePlan_eq (markLate s)
  · rfl
  · rfl
  · rfl

/-- R92: in PLANNING the ask sets the mark and the plan goes on. -/
theorem latePlanAsk_planning (s : State) (h : planInFlight s = true) :
    latePlanAsk s = markLate s := by
  unfold planInFlight at h
  unfold latePlanAsk
  split at h <;> simp_all

/-- R92: in SUSPENDED the ask is discarded. -/
theorem latePlanAsk_suspended (s : State) (h : s.planner.state = .suspended) :
    latePlanAsk s = s := by
  simp [latePlanAsk, h]

/-- R106: publishing changes the figures and the alerts alone. -/
theorem publish_eq (figures : Published) (s : State) :
    publish figures s =
      (s.setPlanner { s.planner with published := figures }).setAlerts (publish figures s).alerts :=
  rfl

/-- R104: a plan's completion moves the sources and publishes its figures. -/
theorem applyPlan_eq (plan : Plan) (s : State) :
    ∃ u, SourcesMoved s u ∧ applyPlan plan s = publish plan.figures u := by
  refine ⟨_, ?_, rfl⟩
  exact (takeGrants_moved _ s).trans
    ((endGrants_moved .plan _ plan.revocations).trans (rotations_moved _ _))

/-! ## What a period start's parts keep -/

theorem advancePeriod_eq (first : Bool) (s : State) :
    advancePeriod first s = s.setPlanner (advancePeriod first s).planner := rfl

theorem takeSnapshot_eq (s : State) : takeSnapshot s = s.setPlanner (takeSnapshot s).planner := rfl

theorem planAtPeriodStart_eq (s : State) :
    planAtPeriodStart s = s.setPlanner (planAtPeriodStart s).planner := by
  unfold planAtPeriodStart
  split <;> rfl

theorem planAtPeriodStart_lateMark (s : State) :
    (planAtPeriodStart s).planner.lateMark = false := by
  unfold planAtPeriodStart
  split <;> rfl

/-- R131: the cycle's evaluation changes the cycle and the alerts alone. -/
theorem evaluateCycle_eq (s : State) :
    evaluateCycle s = (s.setCycle (cycleEvaluated s).1).setAlerts (evaluateCycle s).alerts := by
  unfold evaluateCycle
  split <;> rfl

/-- R159, R160: the ports' count moves the sources, the ports and the alerts alone. -/
theorem countSilence_eq (s : State) :
    ∃ u, SourcesMoved s u ∧
      countSilence s = (u.setPorts (countSilence s).ports).setAlerts (countSilence s).alerts := by
  refine ⟨_, endGrants_moved .portSilent s
    ((runningSlots s).filter fun k => ownerFallsSilent s k), ?_⟩
  unfold countSilence
  split <;> rfl

/-! ## Frames of the larger events -/

/-- The blocks that a period start reaches in no case: the part, the scanner, the model, the safety
monitor, the settings, the records, the shares, the free and the post lists, the modes, the serial
lines, the queue. -/
def PeriodKept (s t : State) : Prop :=
  t.part = s.part ∧ t.scanner = s.scanner ∧ t.model = s.model ∧ t.safety = s.safety ∧
    t.store = s.store ∧ t.table.records = s.table.records ∧ t.pool.shares = s.pool.shares ∧
    t.pool.freeLists = s.pool.freeLists ∧ t.pool.postLists = s.pool.postLists ∧
    t.alerts.modes = s.alerts.modes ∧ t.wires = s.wires ∧ t.pending = s.pending

theorem PeriodKept.refl (s : State) : PeriodKept s s :=
  ⟨rfl, rfl, rfl, rfl, rfl, rfl, rfl, rfl, rfl, rfl, rfl, rfl⟩

theorem PeriodKept.trans {s t u : State} (h : PeriodKept s t) (k : PeriodKept t u) :
    PeriodKept s u := by
  obtain ⟨h1, h2, h3, h4, h5, h6, h7, h8, h9, h10, h11, h12⟩ := h
  obtain ⟨k1, k2, k3, k4, k5, k6, k7, k8, k9, k10, k11, k12⟩ := k
  exact ⟨k1.trans h1, k2.trans h2, k3.trans h3, k4.trans h4, k5.trans h5, k6.trans h6, k7.trans h7,
    k8.trans h8, k9.trans h9, k10.trans h10, k11.trans h11, k12.trans h12⟩

theorem SourcesMoved.periodKept {s t : State} (h : SourcesMoved s t) : PeriodKept s t :=
  ⟨h.part_eq, h.scanner_eq, h.model_eq, h.safety_eq, h.store_eq, h.2.1, h.2.2.1, h.2.2.2.1,
    h.2.2.2.2, by rw [h.alerts_eq], h.wires_eq, h.pending_eq⟩

theorem setPlanner_periodKept (s : State) (x : Planner) : PeriodKept s (s.setPlanner x) :=
  ⟨rfl, rfl, rfl, rfl, rfl, rfl, rfl, rfl, rfl, rfl, rfl, rfl⟩

theorem setCycle_periodKept (s : State) (x : DisinfectionCycle) : PeriodKept s (s.setCycle x) :=
  ⟨rfl, rfl, rfl, rfl, rfl, rfl, rfl, rfl, rfl, rfl, rfl, rfl⟩

theorem setPorts_periodKept (s : State) (x : PartnerPorts) : PeriodKept s (s.setPorts x) :=
  ⟨rfl, rfl, rfl, rfl, rfl, rfl, rfl, rfl, rfl, rfl, rfl, rfl⟩

theorem nextDraw_periodKept (s : State) : PeriodKept s s.nextDraw :=
  ⟨rfl, rfl, rfl, rfl, rfl, rfl, rfl, rfl, rfl, rfl, rfl, rfl⟩

theorem raiseOccurrence_periodKept (k : AlertKind) (s : State) :
    PeriodKept s (raiseOccurrence k s) :=
  ⟨rfl, rfl, rfl, rfl, rfl, rfl, rfl, rfl, rfl, rfl, rfl, rfl⟩

theorem followConditions_periodKept (before s : State) :
    PeriodKept s (followConditions before s) :=
  ⟨rfl, rfl, rfl, rfl, rfl, rfl, rfl, rfl, rfl, rfl, rfl, rfl⟩

theorem evaluateCycle_periodKept (s : State) : PeriodKept s (evaluateCycle s) := by
  have follow : PeriodKept s (followConditions s (s.setCycle (cycleEvaluated s).1)) :=
    (setCycle_periodKept s _).trans (followConditions_periodKept s _)
  unfold evaluateCycle
  split
  · exact follow.trans (raiseOccurrence_periodKept _ _)
  · exact follow

theorem eachPort_periodKept (s : State) (f : PortId → Port → Port) : PeriodKept s (eachPort s f) :=
  setPorts_periodKept s _

theorem countSilence_periodKept (s : State) : PeriodKept s (countSilence s) := by
  have counted := (endGrants_moved .portSilent s
    ((runningSlots s).filter fun k => ownerFallsSilent s k)).periodKept.trans
      (eachPort_periodKept _ fun p port =>
        { port with active := port.active && !fallsSilent s p
                    silence := silenceAfter s.ports.timeout port })
  unfold countSilence
  split
  · exact counted.trans (raiseOccurrence_periodKept _ _)
  · exact counted

theorem planAtPeriodStart_periodKept (s : State) : PeriodKept s (planAtPeriodStart s) := by
  rw [planAtPeriodStart_eq]
  exact setPlanner_periodKept s _

theorem advancePeriod_periodKept (first : Bool) (s : State) :
    PeriodKept s (advancePeriod first s) := setPlanner_periodKept s _

theorem takeSnapshot_periodKept (s : State) : PeriodKept s (takeSnapshot s) :=
  setPlanner_periodKept s _

/-- R88, R95: what a period start keeps. -/
theorem periodStartTaken_periodKept (first : Bool) (s : State) :
    PeriodKept s (periodStartTaken first s) := by
  unfold periodStartTaken
  refine .trans ?_ (nextDraw_periodKept _)
  refine .trans ?_ (planAtPeriodStart_periodKept _)
  refine .trans ?_ (takeSnapshot_periodKept _)
  refine .trans ?_ (countSilence_periodKept _)
  refine .trans ?_ (evaluateCycle_periodKept _)
  refine .trans ?_ (expireRequests_moved _).periodKept
  refine .trans ?_ (endGrants_moved _ _ _).periodKept
  refine .trans ?_ (ageRequests_moved _).periodKept
  refine .trans ?_ (countSources_moved _).periodKept
  exact (advancePeriod_periodKept first s).trans (raiseOccurrence_periodKept _ _)

/-- R15, R120: what the neighbours do at a scan completion touches overtemperature and the sources
alone. -/
theorem neighboursTake_eq (scan : Scan) (s : State) :
    ∃ overtemp, SourcesMoved (s.setSafety { s.safety with overtemp := overtemp })
      (neighboursTake scan s) := by
  unfold neighboursTake
  split
  · exact ⟨s.safety.overtemp, revokeAll_moved _ s⟩
  · refine ⟨overtempAfter scan s, ?_⟩
    dsimp only
    split
    · exact (endAtTarget_moved _ _).trans (revokeAll_moved _ _)
    · exact endAtTarget_moved _ _

/-! ## The input lines -/

theorem setLine_eq (s : State) (l : Line) (x : InputLine) :
    setLine s l x = s.setSafety (setLine s l x).safety := by
  cases l <;> rfl

@[simp] theorem lineOf_setLine_self (s : State) (l : Line) (x : InputLine) :
    lineOf (setLine s l x) l = x := by
  cases l <;> rfl

theorem lineOf_setLine_other (s : State) (l m : Line) (x : InputLine) (h : m ≠ l) :
    lineOf (setLine s l x) m = lineOf s m := by
  cases l <;> cases m <;> first | rfl | exact absurd rfl h

/-- R126, R127: a line's effects move the sources alone. -/
theorem lineEffects_moved (before : State) (l : Line) (s : State) :
    SourcesMoved s (lineEffects before l s) := by
  unfold lineEffects
  split
  · cases l
    · exact revokePaidBlock_moved s
    · exact revokeAll_moved _ s
  · exact .refl s

/-- R123: a level taken sets the line, moves the sources and the alerts, and nothing else. -/
theorem takeLevel_eq (l : Line) (level : Level) (s : State) :
    ∃ u, SourcesMoved (setLine s l { lineOf s l with settled := level, settling := none }) u ∧
      takeLevel l level s = u.setAlerts (takeLevel l level s).alerts :=
  ⟨_, lineEffects_moved s l _, rfl⟩

/-! ## The intake -/

/-- R77: a held frame and its source are all that an acceptance changes. -/
theorem holdFrame_moved (s : State) (i : FrameId) : SourcesMoved s (holdFrame s i) :=
  modFrame_moved s i _

theorem acceptForSource_moved (s : State) (k : SlotId) : SourcesMoved s (acceptForSource s k) :=
  modGrant_moved s k _

theorem cancelRequest_moved (s : State) (i target : FrameId) :
    SourcesMoved s (cancelRequest s i target) :=
  (endGrantOf_moved s target).trans
    ((endRequest_moved .cancelled _ target).trans (reportFrame_moved .done _ i))

/-- R75 to R78: settling a frame moves the sources alone. -/
theorem settleFrame_moved (s : State) (p : PortId) (i : FrameId) :
    SourcesMoved s (settleFrame s p i) := by
  unfold settleFrame
  dsimp only
  split
  · exact reportFrame_moved _ s i
  · split
    · split
      · exact .refl s
      · exact cancelRequest_moved s i _
    · split
      · exact .refl s
      · exact (holdFrame_moved s i).trans (acceptForSource_moved _ _)
    · split
      · exact .refl s
      · exact (holdFrame_moved s i).trans (acceptForSource_moved _ _)
    · exact holdFrame_moved s i
    · exact holdFrame_moved s i
    · exact .refl s

end Sys2Proof.Machine
end

