-- ==== Sys2Proof/Laws/PeriodStart.lean ====
section
/-! SUPPORT. What a period start leaves in the grant records (R51, R52, R82, R160). -/

namespace Sys2Proof.Machine

/-! ## Counting and ageing -/

@[simp] theorem frameOf_eachGrant (s : State) (f : SlotId → GrantRecord → GrantRecord)
    (i : FrameId) : frameOf (eachGrant s f) i = frameOf s i := by
  simp [frameOf, eachGrant]

@[simp] theorem grantOf_eachFrame (s : State) (f : FrameId → Frame → Frame) (k : SlotId) :
    grantOf (eachFrame s f) k = grantOf s k := by
  simp [grantOf, eachFrame]

/-- A frame put one period on: only a HELD one ages (R79). -/
def agedFrame (fr : Frame) : Frame :=
  match fr.state with
  | .held age => { fr with state := .held (saturate (age + 1)) }
  | .free => fr
  | .taken => fr
  | .posted => fr
  | .reported => fr
  | .collected => fr

theorem agedFrame_state (a b : Frame) (h : a.state = b.state) :
    (agedFrame a).state = (agedFrame b).state := by
  obtain ⟨st, request, result⟩ := a
  obtain ⟨st', request', result'⟩ := b
  obtain rfl : st = st' := h
  cases st <;> rfl

theorem agedFrame_keeps (fr : Frame) :
    (agedFrame fr).request = fr.request ∧ (agedFrame fr).result = fr.result := by
  unfold agedFrame
  split <;> exact ⟨rfl, rfl⟩

theorem frameOf_ageRequests (s : State) (i : FrameId) :
    frameOf (ageRequests s) i = agedFrame (frameOf s i) := by
  unfold ageRequests
  rw [frameOf_eachFrame]
  rfl

/-- R57: a frame counted at a period start; only result fields of a RUNNING source's request change. -/
theorem frameOf_countSources (s : State) (i : FrameId) :
    frameOf (countSources s) i =
      match heldSlot s i with
      | none => frameOf s i
      | some k =>
        if isGrantRunning s k then
          { frameOf s i with result := countedResult (frameOf s i).result }
        else frameOf s i := by
  unfold countSources countPeriodsRun
  rw [frameOf_eachGrant, frameOf_eachFrame]
  split <;> simp [*, countedResult, saturate, Nat.min_comm]

theorem countSources_frame (s : State) (i : FrameId) :
    (frameOf (countSources s) i).state = (frameOf s i).state ∧
      (frameOf (countSources s) i).request = (frameOf s i).request := by
  rw [frameOf_countSources]
  split
  · exact ⟨rfl, rfl⟩
  · split <;> exact ⟨rfl, rfl⟩

theorem heldSlot_countSources (s : State) (i : FrameId) :
    heldSlot (countSources s) i = heldSlot s i := by
  simp [heldSlot, isHeld, kindOf, countSources_frame]

theorem isHeld_ageRequests (s : State) (i : FrameId) :
    isHeld (ageRequests s) i = isHeld s i := by
  unfold isHeld
  rw [frameOf_ageRequests]
  obtain ⟨st, request, result⟩ := frameOf s i
  cases st <;> rfl

theorem heldSlot_ageRequests (s : State) (i : FrameId) :
    heldSlot (ageRequests s) i = heldSlot s i := by
  simp [heldSlot, isHeld_ageRequests, kindOf, frameOf_ageRequests, agedFrame_keeps]

theorem heldFor_of_heldSlot (s t : State) (h : ∀ i, heldSlot t i = heldSlot s i) (k : SlotId) :
    heldFor t k = heldFor s k := by
  simp only [heldFor, h]

/-! ## The expiries -/

/-- R51: the grants of the sources that several held requests concern end alike. -/
theorem endGrantOfs_eq (l : List FrameId) (s : State) :
    l.foldl endGrantOf s = endGrants .requestEnd s (l.filterMap (heldSlot s)) := by
  induction l generalizing s with
  | nil => rfl
  | cons i rest ih =>
    rw [List.foldl_cons, ih]
    cases h : heldSlot s i with
    | none => simp [endGrantOf, h]
    | some k =>
      have same : heldSlot (endGrant .requestEnd s k) = heldSlot s := by
        funext j
        exact (endGrant_kept .requestEnd s k).heldSlot_eq j
      simp only [endGrantOf, h, List.filterMap_cons, same]
      rfl

/-- R51, R82: a grant record after the expiries. -/
theorem grantOf_expireRequests (s : State) (k : SlotId) :
    grantOf (expireRequests s) k =
      if ∃ i, expires s i = true ∧ heldSlot s i = some k then
        if isGrantRunning s k = true then
          grantEnded (recordOf s k).minRest false (grantOf s k)
        else if isGrantWaiting s k = true then { grantOf s k with state := .idle }
        else grantOf s k
      else grantOf s k := by
  have kept := endGrants_kept .requestEnd s ((allFrames.filter (expires s)).filterMap (heldSlot s))
  have named : k ∈ (allFrames.filter (expires s)).filterMap (heldSlot s) ↔
      ∃ i, expires s i = true ∧ heldSlot s i = some k := by
    simp [List.mem_filterMap]
  unfold expireRequests
  dsimp only
  rw [endGrantOfs_eq, grantOf_endRequests]
  simp only [kept.heldSlot_eq]
  unfold isGrantWaiting
  rw [grantOf_endGrants]
  simp only [named]
  by_cases some : ∃ i, expires s i = true ∧ heldSlot s i = Option.some k
  · have held : (heldFor s k).isSome = true := by
      obtain ⟨i, _, h⟩ := some
      exact (heldFor_isSome s k).mpr ⟨i, h⟩
    rw [if_pos some, held, endedGrant_eq_grantEnded]
    by_cases running : isGrantRunning s k = true
    · simp only [some, running, and_self, if_true]
      unfold grantEnded
      split
      · simp
      · simp
    · have : (grantOf s k).state ≠ .running := by simpa [isGrantRunning] using running
      simp [some, running]
  · simp [some]

/-- R82: no request that expires is held any more, and every other is. -/
theorem heldSlot_expireRequests (s : State) (i : FrameId) :
    heldSlot (expireRequests s) i = if expires s i = true then none else heldSlot s i := by
  have kept := endGrants_kept .requestEnd s ((allFrames.filter (expires s)).filterMap (heldSlot s))
  have frame := frameOf_endRequests (expiryOutcome s) (endGrants .requestEnd s
    ((allFrames.filter (expires s)).filterMap (heldSlot s))) (expires s) i
  rw [kept.isHeld_eq, ← endGrantOfs_eq] at frame
  change frameOf (expireRequests s) i = _ at frame
  rw [endGrantOfs_eq] at frame
  by_cases due : expires s i = true
  · rw [if_pos due]
    by_cases held : isHeld s i = true
    · rw [if_pos ⟨due, held⟩] at frame
      simp [heldSlot, isHeld, frame, reportedFrame]
    · rw [if_neg fun h => held h.2] at frame
      have same := kept.isHeld_eq i
      simp only [isHeld] at same held ⊢
      simp only [heldSlot, isHeld, frame, same, held, Bool.false_and]
      simp
  · rw [if_neg due]
    rw [if_neg fun h => due h.1] at frame
    rw [← kept.heldSlot_eq i]
    exact heldSlot_of_frame _ _ i frame

/-! ## The silence -/

/-- R159, R160: a grant record after the ports have taken a period start. -/
theorem grantOf_countSilence (s : State) (k : SlotId) :
    grantOf (countSilence s) k =
      if ownerFallsSilent s k = true ∧ isGrantRunning s k = true then
        grantEnded (recordOf s k).minRest (heldFor s k).isSome (grantOf s k)
      else grantOf s k := by
  have table : (countSilence s).table =
      (endGrants .portSilent s ((runningSlots s).filter fun k => ownerFallsSilent s k)).table := by
    unfold countSilence
    split <;> rfl
  have same : grantOf (countSilence s) k =
      grantOf (endGrants .portSilent s
        ((runningSlots s).filter fun k => ownerFallsSilent s k)) k := by
    unfold grantOf
    rw [table]
  rw [same, grantOf_endGrants, endedGrant_eq_grantEnded]
  by_cases silent : ownerFallsSilent s k = true <;>
    by_cases running : isGrantRunning s k = true <;> simp [silent, running]

/-! ## The period start -/

/-- R52, R79: the state in which the expiries of a period start find the part. -/
def countedState (first : Bool) (s : State) : State :=
  ageRequests (countSources (raiseOccurrence .periodStart (advancePeriod first s)))

theorem countedState_kept (first : Bool) (s : State) : PeriodKept s (countedState first s) :=
  ((advancePeriod_periodKept first s).trans (raiseOccurrence_periodKept _ _)).trans
    ((countSources_moved _).periodKept.trans (ageRequests_moved _).periodKept)

theorem countedState_ports (first : Bool) (s : State) : (countedState first s).ports = s.ports :=
  (ageRequests_moved _).ports_eq.trans (countSources_moved _).ports_eq

theorem heldSlot_countedState (first : Bool) (s : State) (i : FrameId) :
    heldSlot (countedState first s) i = heldSlot s i :=
  (heldSlot_ageRequests _ i).trans (heldSlot_countSources _ i)

theorem heldFor_countedState (first : Bool) (s : State) (k : SlotId) :
    heldFor (countedState first s) k = heldFor s k :=
  heldFor_of_heldSlot s _ (heldSlot_countedState first s) k

theorem grantOf_countedState (first : Bool) (s : State) (k : SlotId) :
    grantOf (countedState first s) k = countedGrant (heldFor s k).isSome (grantOf s k) := by
  unfold countedState ageRequests
  rw [grantOf_eachFrame, grantOf_countSources]
  rfl

theorem recordOf_countedState (first : Bool) (s : State) (k : SlotId) :
    recordOf (countedState first s) k = recordOf s k := by
  simp [recordOf, (countedState_kept first s).2.2.2.2.2.1]

theorem ownerFallsSilent_of_ports (s t : State) (k : SlotId) (h1 : recordOf t k = recordOf s k)
    (h2 : t.ports = s.ports) : ownerFallsSilent t k = ownerFallsSilent s k := by
  unfold ownerFallsSilent
  rw [h1]
  split
  · rfl
  · unfold fallsSilent portOf
    rw [h2]

theorem frameOf_countedState (first : Bool) (s : State) (i : FrameId) :
    frameOf (countedState first s) i =
      agedFrame (frameOf (countSources (raiseOccurrence .periodStart (advancePeriod first s))) i) :=
  frameOf_ageRequests _ i

theorem request_countedState (first : Bool) (s : State) (i : FrameId) :
    (frameOf (countedState first s) i).request = (frameOf s i).request := by
  rw [frameOf_countedState, (agedFrame_keeps _).1, (countSources_frame _ i).2]
  rfl

theorem state_countedState (first : Bool) (s : State) (i : FrameId) :
    (frameOf (countedState first s) i).state = (agedFrame (frameOf s i)).state := by
  rw [frameOf_countedState]
  exact agedFrame_state _ _ (countSources_frame _ i).1

/-- R82: the request held for a slot expires exactly when it lapses. -/
theorem expires_countedState (first : Bool) (s : State) (i : FrameId) (k : SlotId)
    (h : heldSlot s i = some k) : expires (countedState first s) i = true ↔ lapses s i := by
  have source := (heldSlot_held s i k h).2
  have held := (heldSlot_held s i k h).1
  have request := request_countedState first s i
  have st := state_countedState first s i
  unfold expires lapses kindOf
  rw [request]
  unfold kindOf at source
  by_cases heat : (frameOf s i).request.kind = 1
  · have reached : spanReached (frameOf (countedState first s) i) = true ↔
        ∃ age, (frameOf s i).state = .held age ∧
          (frameOf s i).request.span.toNat ≤ min 65535 (age + 1) := by
      unfold spanReached
      rw [st, request]
      unfold agedFrame
      unfold isHeld at held
      cases hst : (frameOf s i).state <;> simp_all [saturate, Nat.min_comm] <;>
        exact decide_eq_true_iff
    have kind : requestKind 1 = some .heat := rfl
    simp only [heat, kind, Bool.and_eq_true, bne_iff_ne, ne_eq, reached, true_and]
  · have notHeat : requestKind (frameOf s i).request.kind ≠ some .heat := by
      unfold requestKind
      rw [if_neg heat]
      (repeat' split) <;> simp
    cases kind : requestKind (frameOf s i).request.kind with
    | none => rw [kind] at source; simp [kindNamesSource] at source
    | some r => cases r <;> simp_all [kindNamesSource]

theorem periodStartTaken_table (first : Bool) (s : State) :
    (periodStartTaken first s).table =
      (countSilence (evaluateCycle (expireRequests (endGrants .portSilent (countedState first s)
        (silencedFirst (countedState first s)))))).table := by
  have plan (x : State) : (planAtPeriodStart x).table = x.table := by rw [planAtPeriodStart_eq]; rfl
  have draw (x : State) : x.nextDraw.table = x.table := rfl
  have snapshot (x : State) : (takeSnapshot x).table = x.table := rfl
  dsimp only [periodStartTaken, countedState]
  rw [draw, plan, snapshot]

/-- R51, R52, R82, R160: a slot's grant record after a period start. -/
theorem grantOf_periodStartTaken (first : Bool) (s : State) (k : SlotId) :
    let counted := countedGrant (heldFor s k).isSome (grantOf s k)
    (∀ i, heldSlot s i = some k → lapses s i →
      grantOf (periodStartTaken first s) k =
        if counted.state = .running then grantEnded (recordOf s k).minRest false counted
        else if counted.state = .waiting then { counted with state := .idle }
        else counted) ∧
    ((∀ i, heldSlot s i = some k → ¬lapses s i) →
      grantOf (periodStartTaken first s) k =
        if ownerFallsSilent s k = true ∧ counted.state = .running then
          grantEnded (recordOf s k).minRest (heldFor s k).isSome counted
        else counted) := by
  intro counted
  let s2 := countedState first s
  let u := endGrants .portSilent s2 (silencedFirst s2)
  let s3 := expireRequests u
  have result : grantOf (periodStartTaken first s) k =
      grantOf (countSilence (evaluateCycle s3)) k := by
    unfold grantOf
    rw [periodStartTaken_table]
  have uKept : poolKept s2 u := endGrants_kept _ _ _
  have uMoved : SourcesMoved s2 u := endGrants_moved _ _ _
  have s3Moved : SourcesMoved u s3 := expireRequests_moved u
  have recordU : recordOf u k = recordOf s k :=
    (uMoved.recordOf_eq k).trans (recordOf_countedState first s k)
  have heldU (i : FrameId) : heldSlot u i = heldSlot s i :=
    (uKept.heldSlot_eq i).trans (heldSlot_countedState first s i)
  have expiresU (i : FrameId) : expires u i = expires s2 i := by
    unfold expires
    rw [uKept.kindOf_eq]
    unfold spanReached
    rw [(uKept.2.2.2.2 i).1, (uKept.2.2.2.2 i).2]
  have grantU := grantOf_endGrants .portSilent (silencedFirst s2) s2 k
  have grant3 := grantOf_expireRequests u k
  have cycle : ∀ x : State, (evaluateCycle x).table = x.table ∧ (evaluateCycle x).pool = x.pool ∧
      (evaluateCycle x).ports = x.ports := by
    intro x
    rw [evaluateCycle_eq]
    exact ⟨rfl, rfl, rfl⟩
  have grantC : grantOf (evaluateCycle s3) k = grantOf s3 k := by unfold grantOf; rw [(cycle s3).1]
  have recordC : recordOf (evaluateCycle s3) k = recordOf s k := by
    have : recordOf (evaluateCycle s3) k = recordOf s3 k := by unfold recordOf; rw [(cycle s3).1]
    rw [this, s3Moved.recordOf_eq, recordU]
  have silentC : ownerFallsSilent (evaluateCycle s3) k = ownerFallsSilent s k := by
    refine ownerFallsSilent_of_ports s _ k recordC ?_
    rw [(cycle s3).2.2, s3Moved.ports_eq, uMoved.ports_eq]
    exact countedState_ports first s
  have last := grantOf_countSilence (evaluateCycle s3) k
  rw [silentC, recordC, isGrantRunning, grantC] at last
  rw [result, last]
  have countedEq : grantOf s2 k = counted := grantOf_countedState first s k
  have grantU' : grantOf u k =
      if k ∈ silencedFirst s2 ∧ isGrantRunning s2 k = true then
        endedGrant (recordOf s2 k).minRest (heldFor s2 k).isSome (grantOf s2 k)
      else grantOf s2 k := grantU
  rw [isGrantRunning, countedEq, endedGrant_eq_grantEnded,
    show recordOf s2 k = recordOf s k from recordOf_countedState first s k,
    show heldFor s2 k = heldFor s k from heldFor_countedState first s k] at grantU'
  have grant3' : grantOf s3 k = _ := grant3
  rw [recordU] at grant3'
  refine ⟨fun i h lapse => ?_, fun none => ?_⟩
  · have some : ∃ i, expires u i = true ∧ heldSlot u i = Option.some k :=
      ⟨i, by rw [expiresU]; exact (expires_countedState first s i k h).mpr lapse, by rw [heldU, h]⟩
    have isSome : (heldFor s k).isSome = true := (heldFor_isSome s k).mpr ⟨i, h⟩
    rw [if_pos some] at grant3'
    rw [isSome] at grantU'
    have value : grantOf s3 k =
        if counted.state = .running then grantEnded (recordOf s k).minRest false counted
        else if counted.state = .waiting then { counted with state := .idle }
        else counted := by
      rw [grant3', isGrantRunning, isGrantWaiting, grantU']
      by_cases running : counted.state = .running
      · by_cases first : k ∈ silencedFirst s2
        · simp only [first, running, beq_self_eq_true, and_self, if_true]
          unfold grantEnded
          split <;> simp
        · simp [first, running]
      · simp [running]
    have stops : (grantOf s3 k).state ≠ .running := by
      rw [value]
      split
      · unfold grantEnded
        split <;> simp
      · rename_i h1
        split
        · simp
        · exact h1
    rw [if_neg, value]
    simpa using fun _ => stops
  · have noExpiry : ¬∃ i, expires u i = true ∧ heldSlot u i = Option.some k := by
      rintro ⟨i, due, h⟩
      rw [heldU] at h
      rw [expiresU] at due
      exact none i h ((expires_countedState first s i k h).mp due)
    have notFirst : k ∉ silencedFirst s2 := by
      intro mem
      unfold silencedFirst at mem
      rw [List.mem_filter, Bool.and_eq_true] at mem
      have due := mem.2.2
      split at due
      · cases due
      · rename_i i held
        rw [show heldFor s2 k = heldFor s k from heldFor_countedState first s k] at held
        rw [Bool.and_eq_true] at due
        have h := heldSlot_of_heldFor s k i held
        exact none i h ((expires_countedState first s i k h).mp due.1)
    rw [if_neg noExpiry, grantU', if_neg fun h => notFirst h.1] at grant3'
    have heldC : (heldFor (evaluateCycle s3) k).isSome = (heldFor s k).isSome := by
      have pool (i : FrameId) : heldSlot (evaluateCycle s3) i = heldSlot s3 i :=
        heldSlot_of_frame _ _ i (by unfold frameOf; rw [(cycle s3).2.1])
      rw [Bool.eq_iff_iff, heldFor_isSome, heldFor_isSome]
      refine exists_congr fun i => ?_
      rw [pool, show heldSlot s3 i = _ from heldSlot_expireRequests u i, heldU]
      split
      · rename_i due
        refine ⟨fun h => (nomatch h), fun h => ?_⟩
        rw [expiresU] at due
        exact absurd ((expires_countedState first s i k h).mp due) (none i h)
      · exact Iff.rfl
    rw [heldC, grant3']
    simp

end Sys2Proof.Machine
end

