-- ==== Sys2Proof/Laws/Replies.lean ====
section
/-! SUPPORT. What serving a command does (R153, R155 to R157): the port is heard, the command acts, the
response is fixed. -/

namespace Sys2Proof.Machine

theorem serve_decodes (p : PortId) (body : State → Answer) (s : State) (h : decodes s p = true) :
    serve p body s = .next (answered p (body (heard p s))) := by
  simp [serve, h]

theorem serve_disregards (p : PortId) (body : State → Answer) (s : State)
    (h : decodes s p = false) : serve p body s = .next s := by
  simp [serve, h]

/-- R155: until the start-up load completes no port decodes. -/
theorem decodes_loading (s : State) (p : PortId) (h : isRunning s = false) :
    decodes s p = false := by
  simp [decodes, h]

theorem decodes_running (s : State) (p : PortId) (h : decodes s p = true) :
    isRunning s = true := by
  simp only [decodes, Bool.and_eq_true] at h
  exact h.1

theorem serve_next (p : PortId) (body : State → Answer) (s : State) :
    ∃ t, serve p body s = .next t := by
  unfold serve
  split <;> exact ⟨_, rfl⟩

/-- Hearing a port changes nothing but the ports. -/
theorem heard_eq (p : PortId) (s : State) : heard p s = s.setPorts (heard p s).ports := rfl

/-- Answering changes nothing but the ports. -/
theorem answered_eq (p : PortId) (a : Answer) :
    answered p a = a.2.setPorts (answered p a).ports := rfl

/-- A command that acts on nothing but its port's liveness. -/
theorem answered_heard (p : PortId) (r : Response) (s : State) :
    answered p (r, heard p s) = s.setPorts (replied s p r) := by
  simp [answered, heard, modPort, modifyAt, replied, repliedPort, portOf, State.setPorts]

/-- A refused command leaves what R156 says. -/
theorem answered_refused (p : PortId) (status : Status) (s : State) :
    answered p (refused status (heard p s)) = refusedWith s p status := by
  simp [refused, answered_heard, refusedWith]

@[simp] theorem heard_part (p : PortId) (s : State) : (heard p s).part = s.part := rfl
@[simp] theorem heard_scanner (p : PortId) (s : State) : (heard p s).scanner = s.scanner := rfl
@[simp] theorem heard_model (p : PortId) (s : State) : (heard p s).model = s.model := rfl
@[simp] theorem heard_table (p : PortId) (s : State) : (heard p s).table = s.table := rfl
@[simp] theorem heard_pool (p : PortId) (s : State) : (heard p s).pool = s.pool := rfl
@[simp] theorem heard_planner (p : PortId) (s : State) : (heard p s).planner = s.planner := rfl
@[simp] theorem heard_safety (p : PortId) (s : State) : (heard p s).safety = s.safety := rfl
@[simp] theorem heard_cycle (p : PortId) (s : State) : (heard p s).cycle = s.cycle := rfl
@[simp] theorem heard_alerts (p : PortId) (s : State) : (heard p s).alerts = s.alerts := rfl
@[simp] theorem heard_wires (p : PortId) (s : State) : (heard p s).wires = s.wires := rfl
@[simp] theorem heard_store (p : PortId) (s : State) : (heard p s).store = s.store := rfl
@[simp] theorem heard_openDraws (p : PortId) (s : State) :
    (heard p s).openDraws = s.openDraws := rfl
@[simp] theorem heard_pending (p : PortId) (s : State) : (heard p s).pending = s.pending := rfl

end Sys2Proof.Machine
end

