-- ==== Sys2Proof/Tests/Slice0.lean ====
section
/-! SUPPORT. The model's own tests: the checks of WellFormed, the transaction bytes of the formats
chapter, small steps of every command on values worked in the spec, and, for the statements with
hypotheses, a state and operands that meet them. -/

namespace Sys2Proof.Tests

open Sys2Proof.Machine

-- One theorem at a time: the kernel evaluations of many tests at once would each take a thread.
set_option Elab.async false

/-! ## Helpers -/

/-- The next state of a command. -/
def result (c : Instr) (s : State) : Option State :=
  match exec c s with
  | .next t => some t
  | .fault _ => none
  | .refused _ => none

/-- The response a port holds after a command. -/
def reply (c : Instr) (p : PortId) (s : State) : Option Response :=
  (result c s).bind fun t => (portOf t p).response

/-- The four shares at their default. -/
def evenShares : Vector Nat 4 := Vector.replicate 4 12

/-- The Request Pool after a load with the default shares. -/
def freePool : RequestPool :=
  { shares := evenShares, frames := Vector.replicate 48 (clearedFrame .free),
    freeLists := Vector.ofFn (portFrames evenShares), postLists := Vector.replicate 4 [],
    replyQueues := Vector.replicate 4 [] }

/-- Slot S0 FREE of P0 over layers 0 to 2, slot S1 PAID of P1 over layers 4 to 6, the others without
an owner. -/
def twoSources : SourceTable :=
  let unused : SourceRecord :=
    { owner := none, sourceClass := .free, coilBottom := 0, coilTop := 0, ratedPower := 0,
      minPower := 0, minRun := 0, minRest := 0, ceiling := 1360 }
  { records := ((Vector.replicate 6 unused).set 0
      { unused with owner := some 0, coilTop := 2, ratedPower := 3000, minRest := 1 }).set 1
      { owner := some 1, sourceClass := .paid, coilBottom := 4, coilTop := 6, ratedPower := 6000,
        minPower := 2000, minRun := 3, minRest := 2, ceiling := 880 }
    grants := Vector.ofFn fun k => clearedGrant (if k.val < 2 then .idle else .unused) k.val }

/-- A running part with the two sources, all frames FREE and every kind in LEVEL mode where it can
be. -/
def ready : State :=
  { State.reset with
    part := { State.reset.part with phase := .running }
    table := twoSources
    pool := freePool
    alerts := { State.reset.alerts with
      modes := Vector.ofFn fun kind => if kind.val < 9 then .level else .edge }
    safety :=
      { overtemp := false
        x0 := { pin := .low, activeLevel := .high, settleTime := 10, settled := .low, settling := none }
        x1 := { pin := .low, activeLevel := .high, settleTime := 2, settled := .low,
                settling := none } } }

/-- A frame put into a state with a kind, a slot, a span and a cancel index. -/
def withFrame (s : State) (i : FrameId) (st : FrameState) (kind slot : Byte) (target span : Word)
    (cancel : Byte) : State :=
  modFrame s i fun _ => { clearedFrame st with
    request := { kind := kind, slot := slot, tag := 0, target := target, amount := 0, span := span,
                 cancel := cancel } }

/-- One frame of P0, POSTED alone at the head of its post list. -/
def posted (kind slot : Byte) (target span : Word) (cancel : Byte) : State :=
  setPostList (withFrame ready 3 .posted kind slot target span cancel) 0 [3]

/-- The timer running with the given seconds remaining, a scan completed and the model FULL. -/
def timed (s : State) (seconds : Nat) : State :=
  (s.setPlanner { s.planner with timerRunning := true, secondsRemaining := seconds }).setModel
    { s.model with scanCompleted := true, state := .full }

/-- The part in SETUP with P0 as holder. -/
def inSetupOf (s : State) : State :=
  (s.setStore { s.store with setup := some { holder := 0, entrySnapshot := s.store.image } }).setPlanner
    { s.planner with state := .suspended }

/-- The part in SETUP with the timer running, the model at NONE and no probe configured. -/
def leaving : State :=
  let s := inSetupOf (timed ready 40)
  s.setModel { s.model with state := .none }

/-- S0 RUNNING at 3000 W with a HEAT request of P0 held in frame 2, P0 ACTIVE. -/
def heating : State :=
  modPort (modGrant (withFrame (timed ready 40) 2 (.held 0) 1 0 900 5 0) 0 fun g =>
    { g with state := .running, power := 3000, target := 900 }) 0 fun p => { p with active := true }

/-- Two probes configured at layers 4 and 7, and a scan in flight. -/
def scanning (toRead : List ProbeId) (results : List (ProbeId × ReadResult)) : State :=
  let probes := (ready.scanner.probes.set 0
    { address := 1, layer := some 4, state := .unread, lastValid := 0, holdCount := 0 }).set 1
    { address := 2, layer := some 7, state := .unread, lastValid := 0, holdCount := 0 }
  ready.setScanner { ready.scanner with
    probes := probes
    scan := some { toRead := toRead, results := results, holdLimit := 3, inversionMargin := 32,
                   tLimit := 1472, hysteresis := 80 } }

/-- The plan that grants S0 for frame 2. -/
def planForS0 : Plan :=
  { grants := [{ slot := 0, frame := 2, power := 3000, target := 900, wasRunning := false, merit := 0 }]
    revocations := [1], contested := [], figures := { ready.planner.published with comfort := 2500 } }

/-- S0 WAITING and S1 RUNNING under held requests, with a plan in flight. -/
def planning (st : PlannerState) : State :=
  let s1 := modGrant heating 0 fun g => { g with state := .waiting, power := 0, target := 0 }
  let s2 := modGrant (withFrame s1 12 (.held 0) 2 1 0 0 0) 1 fun g =>
    { g with state := .running, power := 2000 }
  s2.setPlanner { s2.planner with state := st }

/-- The select of P0 low and the clock at rest, in a state. -/
def inTransaction (s : State) : State := selectFalls 0 s

/-- A RESTART accepted from a port, in a state. -/
def restarting (s : State) (p : PortId) : State :=
  s.setPart { s.part with restartArmed := s.part.restartArmed.set p true }

/-- The bits of a byte clocked in on P0, the most significant first. -/
def clocked (b : Byte) (s : State) : State :=
  [7, 6, 5, 4, 3, 2, 1, 0].foldl (fun u j => clockRises 0 (b.getLsbD j) u) s

/-- Every port subscribed to every kind. -/
def listening (s : State) : State :=
  s.setStore { s.store with image := writtenImage s.store.image 0x0C0 (List.replicate 8 0xFF) }

/-- S0 RUNNING under its HEAT request of frame 2, with the two probes and the last read of a scan. -/
def heatingAtScan (target : Int) : State :=
  let s := modGrant heating 0 fun g => { g with target := target }
  s.setScanner { (scanning [1] [(0, .good 900)]).scanner with
    probes := (scanning [] []).scanner.probes.set 1
      { address := 2, layer := some 7, state := .ok, lastValid := 700, holdCount := 0 } }

/-! ## WellFormed -/

theorem test_fill_count_too_long :
    (Instr.fill 0 3 0 (List.replicate 256 0)).wellFormed = false := by decide +kernel

theorem test_fill_count_longest :
    (Instr.fill 0 3 0 (List.replicate 255 0)).wellFormed = true := by decide +kernel

theorem test_set_write_count_too_long :
    (Instr.setWrite 1 (List.replicate 256 0)).wellFormed = false := by decide +kernel

theorem test_bad_command_with_listed_code : (Instr.badCommand 0 0x45).wellFormed = false := by decide

theorem test_bad_command_with_unlisted_code : (Instr.badCommand 0 0x03).wellFormed = true := by decide

/-! ## The words and the transactions -/

theorem test_no_word_spells_a_command : decodeTableWord 8 0x01 = none := by decide

theorem test_no_word_is_queued : ready.withFetchWord 8 0x01 = ready := rfl

theorem test_fill_decodes :
    decodeTransaction 0 [0x11, 0x03, 0x04, 0x02, 0xD0, 0x02, 0xFF] =
      .complete (.fill 0 0x03 0x04 [0xD0, 0x02]) [0xFF] := by decide

theorem test_select_decodes_low_byte_first :
    decodeTransaction 2 [0x30, 0x5A, 0x01] = .complete (.select 2 0x015A) [] := by decide

theorem test_cut_select_is_incomplete : decodeTransaction 2 [0x30, 0x5A] = .incomplete := by decide

theorem test_unlisted_byte_is_bad_command :
    decodeTransaction 3 [0x46, 0x01] = .complete (.badCommand 3 0x46) [0x01] := by decide

/-! ## Values worked in the spec -/

/-- Section 1.6: a falling profile. -/
theorem test_falling_profile :
    (formedLayers (Vector.replicate 12 0) [(4, 900), (7, 700)]).toList =
      [900, 900, 900, 900, 900, 834, 767, 700, 700, 700, 700, 700] := by decide

/-- Section 2.8: the layers of the worked cylinder. -/
def workedLayers : Vector Int 12 :=
  formedLayers (Vector.replicate 12 0) [(0, 288), (3, 384), (6, 640), (9, 832), (11, 896)]

theorem test_worked_layers : workedLayers.toList =
    [288, 320, 352, 384, 469, 554, 640, 704, 768, 832, 864, 896] := by decide

theorem test_worked_stored_energy : storedEnergy factoryImage workedLayers = 9354 := by decide +kernel

/-- Section 2.8: the base case, and the same cylinder with the cycle DUE. -/
theorem test_worked_figures :
    let base : FormationInputs :=
      { layers := workedLayers, model := .full, cycle := .counting, comfortAmounts := [],
        reserveAmounts := [7000], settings := factoryImage }
    (formFigures base).published = { comfort := 2500, deficit := 1630, reservation := 7000, line := 4,
                                     yieldFlag := false, setAside := false, need := 1630 } ∧
      (formFigures { base with cycle := .due }).lineInUse = 0 ∧
      disinfectionDeficit factoryImage workedLayers = 870 := by decide +kernel

theorem test_need_rounds_up : powerNeed 1630 1800 = 3260 ∧ powerNeed 1630 7000 = 839 := by decide

/-- R176: the check word of an erased page. -/
theorem test_check_word_of_erased_page :
    checkWord (Vector.replicate 256 0xFF) = 0x02FD := by decide +kernel

/-- R168: a written minimum below the range stores the range's nearer end. -/
theorem test_written_field_is_clamped :
    imageU16 (writtenImage factoryImage 0x036 [0x0A, 0x00]) 0x036 = 60 ∧
      imageU8 (writtenImage factoryImage 0x011 [0x0C]) 0x011 = 11 := by decide +kernel

/-- R56: the ranks of the slots after S1 wins. -/
theorem test_one_rotation :
    (allSlots.map fun k => (grantOf (rotateRanks ready 1) k).rank) = [1, 0, 2, 3, 4, 5] := by
  decide +kernel

/-- R1: the check byte makes the four bytes sum to 0xFF. -/
theorem test_read_judged :
    judgeRead 0x11 0x84 0x03 0x67 = .goodReading 900 ∧ judgeRead 0x11 0x84 0x03 0x68 = .badCheck ∧
      judgeRead 0x11 0x61 0x09 0x84 = .outOfRange := by decide

/-! ## One step of each command -/

theorem test_power_on_reset :
    (result .powerOnReset { ready with part := { ready.part with cause :=
      { powerOn := false, resetPin := true, supplyLow := true, restart := true } } }).map (·.part.cause) =
      some { powerOn := true, resetPin := false, supplyLow := false, restart := false } := by
  decide +kernel

theorem test_power_on_reset_again :
    (result .powerOnReset State.reset).map (·.part) = some State.reset.part := by decide +kernel

theorem test_reset_pin_reset :
    (result .resetPinReset heating).map (fun t => (t.part.phase, t.part.rstnHeld, t.part.cause.resetPin,
      permitLine t 0, (grantOf t 0).power)) = some (.loading, true, true, false, 0) := by
  decide +kernel

theorem test_supply_low_reset_tears_store :
    (result .supplyLowReset { ready with store := { ready.store with storing := some factoryImage } }).map
      (fun t => (t.part.supplyHeld, t.part.cause.supplyLow, t.store.page)) =
      some (true, true, .torn) := by decide +kernel

theorem test_restart_reset_follows_restart :
    ((result (.restart 0) (inSetupOf ready)).bind (result .restartReset)).map
      (fun t => (t.part.phase, t.part.cause.restart, inSetup t)) = some (.loading, true, false) := by
  decide +kernel

theorem test_restart_reset_alone : exec .restartReset ready = .next ready := rfl

theorem test_start_up_load_of_erased_page :
    (result .startUpLoad State.reset).map (fun t => (isRunning t, t.alerts.heldLost.toList,
      t.model.scanCompleted, t.planner.secondsRemaining)) =
      some (true, [true, true, true, true], true, 60) := by decide +kernel

theorem test_start_up_load_held_in_reset :
    let held := { State.reset with part := { State.reset.part with rstnHeld := true } }
    exec .startUpLoad held = .next held := rfl

theorem test_scan_start :
    (result .scanStart (scanning [] [] |>.setScanner
      { (scanning [] []).scanner with scan := none })).map
      (fun t => t.scanner.scan.map (fun x => (x.toRead, x.holdLimit, x.tLimit))) =
      some (some ([0, 1], 3, 1472)) := by decide +kernel

theorem test_probe_read_kept :
    (result (.probeRead 0x84 0x03 0x77) (scanning [0, 1] [])).map
      (fun t => t.scanner.scan.map (fun x => (x.toRead, x.results))) =
      some (some ([1], [(0, .good 900)])) := by decide +kernel

theorem test_probe_read_completes_scan :
    (result (.probeRead 0xBC 0x02 0x3F) (scanning [1] [(0, .good 900)])).map
      (fun t => (t.model.state, t.model.layers.toList, t.model.inversion, t.planner.timerRunning)) =
      some (.full, [900, 900, 900, 900, 900, 834, 767, 700, 700, 700, 700, 700], true, true) := by
  decide +kernel

theorem test_answer_window_close :
    (result .answerWindowClose (scanning [1] [(0, .good 900)])).map
      (fun t => (t.model.state, (t.scanner.probes[1]).state, t.model.layers[11])) =
      some (.single, .failed, 900) := by decide +kernel

theorem test_period_start :
    (result .periodStart (timed heating 1)).map (fun t => (t.planner.period, t.planner.secondsRemaining,
      (grantOf t 0).runCount, (frameOf t 2).state, (frameOf t 2).result.periodsRun)) =
      some (1, 60, 1, .held 1, 1) := by decide +kernel

theorem test_plan_completion_grants_and_revokes :
    (result .planCompletion (planning (.planningFull planForS0))).map (fun t =>
      ((grantOf t 0).state, (grantOf t 0).power, (grantOf t 1).state, (grantOf t 1).restCount,
        (frameOf t 12).result.endCause, t.planner.published.comfort)) =
      some (.running, 3000, .resting, 2, .plan, 2500) := by decide +kernel

theorem test_late_plan_completion_too_late :
    let s := planning (.planningLate planForS0)
    (result .latePlanCompletion (s.setPlanner { s.planner with secondsRemaining := 14 })).map
      (fun t => (planInFlight t, (grantOf t 0).state)) = some (false, .waiting) := by decide +kernel

theorem test_intake_accepts_heat :
    (result (.intakeTake 0) (posted 1 0 100 5 0)).map (fun t => ((frameOf t 3).state,
      (frameOf t 3).request.target, (grantOf t 0).state, postList t 0)) =
      some (.held 0, 161, .waiting, []) := by decide +kernel

theorem test_intake_refuses_owner :
    (result (.intakeTake 0) (posted 1 1 900 0 0)).map (fun t => ((frameOf t 3).state,
      (frameOf t 3).result.outcome, replyQueue t 0)) =
      some (.reported, .refusedOwner, [3]) := by decide +kernel

theorem test_input_pin_change_begins_settle :
    (result (.inputPinChange .x1 .high) ready).map (fun t => (t.safety.x1.settled, t.safety.x1.settling)) =
      some (.low, some { target := .high, time := 2 }) := by decide +kernel

theorem test_settle_expiry_of_x1_ends_grants :
    (result (.settleExpiry .x1) (setLine heating .x1 { heating.safety.x1 with
      pin := .high, settling := some { target := .high, time := 2 } })).map
      (fun t => (lineActive t .x1, (grantOf t 0).state, (frameOf t 2).result.endCause)) =
      some (true, .resting, .serviceStop) := by decide +kernel

theorem test_store_completion_differs :
    (result (.storeCompletion (Vector.replicate 256 1))
      { ready with store := { ready.store with storing := some (Vector.replicate 256 0) } }).map
      (fun t => (t.store.lastStore, t.store.storing)) = some (.failed, none) := by decide +kernel

theorem test_transaction_discarded : exec (.transactionDiscarded 2) ready = .next ready := rfl

theorem test_bad_command_counts_for_liveness :
    (result (.badCommand 2 0x99) ready).map (fun t => (portActive t 2, (portOf t 2).response)) =
      some (true, some ⟨.badCommand, []⟩) := by decide +kernel

theorem test_ident : reply (.ident 1) 1 ready = some ⟨.ok, [0x64, 0x20, 0x01, 0x01]⟩ := by
  decide +kernel

theorem test_status : reply (.status 1) 1 heating =
    some ⟨.ok, [1, 0x03, 0, 0, 0, 0, 0xFF, 2, 0, 0, 40, 0, 0, 0, 0]⟩ := by decide +kernel

theorem test_take_hands_out_head : reply (.take 1) 1 ready = some ⟨.ok, [12]⟩ := by decide +kernel

theorem test_fill_pad_byte_stays_zero :
    (result (.fill 0 3 10 [7, 9]) (withFrame ready 3 .taken 0 0 0 0 0)).map
      (fun t => requestBytes (frameOf t 3).request) = some [0, 0, 0, 0, 0, 0, 0, 0, 0, 0, 7, 0] := by
  decide +kernel

theorem test_frame_read : reply (.frameRead 0 3) 0 (posted 1 0 900 5 0) =
    some ⟨.ok, [1, 0, 0, 0, 0x84, 0x03, 0, 0, 5, 0, 0, 0, 0, 0, 0, 0, 0, 0, 0, 0]⟩ := by decide +kernel

theorem test_post_joins_tail :
    (result (.post 0 4) (withFrame (posted 1 0 900 5 0) 4 .taken 0 0 0 0 0)).map
      (fun t => (postList t 0, (frameOf t 4).state)) = some ([3, 4], .posted) := by decide +kernel

theorem test_give_back_joins_tail :
    ((result (.take 0) ready).bind (result (.giveBack 0 0))).map (fun t => freeList t 0) =
      some [1, 2, 3, 4, 5, 6, 7, 8, 9, 10, 11, 0] := by decide +kernel

theorem test_reply_take :
    let s := setReplyQueue (setFrameState (posted 1 0 900 5 0) 3 .reported) 0 [3]
    reply (.replyTake 0) 0 s = some ⟨.ok, [3, 0]⟩ ∧
      (result (.replyTake 0) s).map (fun t => (frameOf t 3).state) = some .collected := by
  decide +kernel

theorem test_release_wrong_state :
    reply (.release 0 3) 0 (posted 1 0 900 5 0) = some ⟨.wrongState, []⟩ := by decide +kernel

theorem test_alert_take_lowest :
    let s := ready.setAlerts { ready.alerts with
      pendingKinds := ready.alerts.pendingKinds.set 0 [.inputX0, .periodStart] }
    reply (.alertTake 0) 0 s = some ⟨.ok, [7, 1]⟩ ∧
      (result (.alertTake 0) s).map (fun t => (pendingOf t 0, awaitingOf t 0)) =
        some ([.periodStart], [.inputX0]) := by decide +kernel

theorem test_alert_done_needs_awaiting :
    reply (.alertDone 0 7) 0 ready = some ⟨.wrongState, []⟩ ∧
      reply (.alertDone 0 16) 0 ready = some ⟨.badArgument, []⟩ := by decide +kernel

theorem test_select_range :
    reply (.select 0 255) 0 ready = some ⟨.ok, []⟩ ∧
      reply (.select 0 256) 0 ready = some ⟨.badArgument, []⟩ := by decide +kernel

theorem test_set_read_period_length :
    reply (.setRead 0 2) 0 (modPort ready 0 fun p => { p with selector := 0x038 }) =
      some ⟨.ok, [60, 0]⟩ := by decide +kernel

theorem test_set_write_permissions :
    reply (.setWrite 0 [5]) 0 (modPort ready 0 fun p => { p with selector := 0x020 }) =
        some ⟨.setupOnly, []⟩ ∧
      reply (.setWrite 0 [5]) 0 (modPort ready 0 fun p => { p with selector := 0x058 }) =
        some ⟨.ok, []⟩ := by decide +kernel

theorem test_setup_enter_ends_grants :
    (result (.setupEnter 3) heating).map (fun t => (setupHolder t, (grantOf t 0).state,
      (frameOf t 2).result.endCause, t.planner.state)) =
      some (some 3, .resting, .setupEnter, .suspended) := by decide +kernel

theorem test_setup_exit_of_factory_image :
    (result (.setupExit 0) leaving).map (fun t => ((portOf t 0).response, inSetup t,
      (recordOf t 0).owner, t.planner.period)) = some (some ⟨.ok, [0]⟩, false, none, 1) := by
  decide +kernel

theorem test_setup_exit_names_check :
    let s := inSetupOf ready
    reply (.setupExit 0) 0 (s.setStore { s.store with image := writtenImage factoryImage 0x02C [0, 4] }) =
      some ⟨.invalid, [2]⟩ := by decide +kernel

theorem test_setup_abandon_restores_image :
    (result (.setupAbandon 0) (leaving.setStore
      { leaving.store with image := writtenImage factoryImage 0x020 [9] })).map
      (fun t => (inSetup t, imageU8 t.store.image 0x020, (recordOf t 0).owner)) =
      some (false, 5, some 0) := by decide +kernel

theorem test_store_keeps_copy :
    (result (.store 0) ready).map (fun t => (t.store.storing.map fun copy => imageByte copy 0x038,
      t.store.lastStore)) = some (some 60, .noResult) := by decide +kernel

theorem test_store_refused_in_setup :
    reply (.store 0) 0 (inSetupOf ready) = some ⟨.wrongState, []⟩ := by decide +kernel

theorem test_restart_needs_setup : reply (.restart 0) 0 ready = some ⟨.wrongState, []⟩ := by
  decide +kernel

theorem test_port_reset_discards_request :
    (result (.portReset 0) heating).map (fun t => ((frameOf t 2).state, (grantOf t 0).state,
      (freeList t 0).length)) = some (.free, .resting, 12) := by decide +kernel

theorem test_model_read_length :
    (reply (.modelRead 0) 0 ready).map (fun r => (r.status, r.bytes.length)) = some (.ok, 79) := by
  decide +kernel

theorem test_source_read : reply (.sourceRead 2 1) 2 ready =
    some ⟨.ok, [1, 1, 4, 6, 0x70, 0x17, 0xD0, 0x07, 0, 0, 3, 2, 0x70, 0x03,
      1, 0, 0, 0, 0, 0, 0, 0, 0, 0, 0, 1]⟩ := by decide +kernel

theorem test_seconds_remaining_tick :
    (result .secondsRemainingTick (timed ready 40)).map (·.planner.secondsRemaining) = some 39 := by
  decide +kernel

theorem test_seconds_remaining_tick_at_one :
    exec .secondsRemainingTick (timed ready 1) = .next (timed ready 1) := rfl

theorem test_reset_pin_release :
    exec .resetPinRelease { ready with part := { ready.part with rstnHeld := true } } =
      .next ready := rfl

theorem test_supply_recovery :
    exec .supplyRecovery { ready with part := { ready.part with supplyHeld := true } } =
      .next ready := rfl

/-! ## The hypotheses of the statements are met

One theorem for each statement that has hypotheses: a state and operands that meet them, each clause at a
boundary of its range. -/

theorem test_hypotheses_StepRunsFrontCommand :
    (ready.setPending [.ident 0, .status 1]).pending = .ident 0 :: [.status 1] := rfl

theorem test_hypotheses_TransactionBytesDecodeBack :
    (Instr.setWrite 1 (List.replicate 255 0)).wellFormed = true ∧
      transactionBytes (.setWrite 1 (List.replicate 255 0)) =
        some (1, 0x32 :: 0xFF :: List.replicate 255 0) ∧
      (Instr.fill 0 0 0 []).wellFormed = true ∧
      transactionBytes (.fill 0 0 0 []) = some (0, [0x11, 0, 0, 0]) ∧
      0 < 1 ∧ 3 < [0x11, 0, 0, 0].length ∧ decodes (inTransaction ready) 0 = true ∧
      (wireOf (inTransaction ready) 0).select = .low ∧
      (wireOf (inTransaction ready) 0).bits = [] ∧
      (wireOf (inTransaction ready) 0).received = [] := by decide +kernel

/-- R152, R153: the bits of SELECT 0x0144 on P0 bring the command into the queue with its last byte. -/
theorem test_select_clocked_in :
    let s := clocked 0x44 (clocked 0x30 (inTransaction ready))
    s.pending = [] ∧ (clocked 0x01 s).pending = [.select 0 0x0144] ∧
      (selectRises 0 s).pending = [.transactionDiscarded 0] := by decide +kernel

/-- R152, R187: after IDENT and the turn byte the data out pin sends the status byte and then 0x64, bit 6
first among its ones, and is released once select is high. -/
theorem test_data_out :
    let sent := (result (.ident 0) (clocked 0x01 (inTransaction ready))).map fun t =>
      modWire t 0 fun w => { w with clockFalls := 25 }
    sent.map (fun t => (sendingByte t 0 2, sendingByte t 0 3, dataOutPin t 0,
      dataOutPin (clockFalls 0 (clockFalls 0 (clockFalls 0 t))) 0,
      dataOutPin (selectRises 0 t) 0)) =
      some (0x00, 0x64, .high, .low, .released) := by decide +kernel

/-- R155: a transaction whose select fell before the load completed is disregarded to its end. -/
theorem test_transaction_before_load :
    let s := (result .startUpLoad (inTransaction State.reset)).getD ready
    isRunning s = true ∧ decodes s 0 = false ∧ (clocked 0x01 s).pending = [] ∧
      decodes (selectFalls 0 (selectRises 0 s)) 0 = true := by decide +kernel

theorem test_hypotheses_CommandsWithoutEffect :
    transactionBytes (.portReset 3) = some (3, [0x45]) ∧ decodes State.reset 3 = false ∧
      decodes ready 0 = true ∧ isRunning State.reset = false ∧
      (wireOf State.reset 0).select = .high ∧
      (wireOf (inTransaction State.reset) 0).disregarded = true ∧
      (wireOf (inTransaction ready) 0).select = .low := by decide +kernel

/-- IDENT received on P0 and answered, before any falling clock edge. -/
def identAnswered : State :=
  modPort (clocked 0x01 (inTransaction ready)) 0 fun port => { port with response := some ⟨.ok, [0x64]⟩ }

theorem test_hypotheses_CommandsWithoutEffect_sending :
    decodes identAnswered 0 = true ∧
      decodeTransaction 0 (wireOf identAnswered 0).received = .complete (.ident 0) [] ∧
      (portOf identAnswered 0).response = some ⟨.ok, [0x64]⟩ ∧
      (wireOf identAnswered 0).select = .low ∧ (wireOf identAnswered 0).clockFalls = 8 * 0 + 0 := by
  decide +kernel

/-- R54, R150, R187: the output pins with S0 RUNNING, with a report for P0, and while a probe is read. -/
theorem test_output_pins :
    permitPin heating 0 = .high ∧ permitPin heating 1 = .low ∧ attentionPin heating 0 = .high ∧
      attentionPin (setReplyQueue heating 0 [2]) 0 = .low ∧
      attentionPin (setReplyQueue heating 0 [2]) 1 = .high ∧
      ready.scanner.scan = none ∧ probeClockPin ready = some .low ∧
      probeClockPin (scanning [1] []) = none := by decide +kernel

theorem test_hypotheses_IdentAnswers : decodes ready 0 = true := rfl

theorem test_hypotheses_StatusAnswers : decodes heating 0 = true := rfl

theorem test_hypotheses_ModelReadAnswers : decodes (timed ready 1) 0 = true := rfl

theorem test_hypotheses_SourceReadAnswers :
    decodes ready 0 = true ∧ 6 ≤ (6 : Byte).toNat ∧ (5 : Byte).toNat = (5 : SlotId).val := by
  decide +kernel

theorem test_hypotheses_FrameCommandsCheckInOrder :
    decodes ready 0 = true ∧ 48 ≤ (48 : Byte).toNat ∧
      (12 : Byte).toNat = (12 : FrameId).val ∧ ownerOf ready 12 ≠ some 0 ∧
      (11 : Byte).toNat = (11 : FrameId).val ∧ ownerOf ready 11 = some 0 ∧
      ¬((11 : Byte).toNat ≤ 11 ∧ 1 ≤ [(0 : Byte), 0].length ∧ (11 : Byte).toNat + 2 ≤ 12) ∧
      ((11 : Byte).toNat ≤ 11 ∧ 1 ≤ [(0 : Byte)].length ∧ (11 : Byte).toNat + 1 ≤ 12) ∧
      (frameOf ready 11).state = .free ∧ (frameOf ready 11).state ≠ .taken ∧
      (frameOf ready 11).state ≠ .collected := by decide +kernel

theorem test_hypotheses_TakeAnswers :
    decodes ready 0 = true ∧ freeList (setFreeList ready 0 []) 0 = [] ∧
      freeList ready 3 = 36 :: [37, 38, 39, 40, 41, 42, 43, 44, 45, 46, 47] := by decide +kernel

theorem test_hypotheses_FillWritesRequestBytes :
    let s := withFrame ready 11 .taken 0 0 0 0 0
    decodes s 0 = true ∧ (11 : Byte).toNat = (11 : FrameId).val ∧ ownerOf s 11 = some 0 ∧
      (frameOf s 11).state = .taken ∧ (11 : Byte).toNat ≤ 11 ∧ 1 ≤ [(7 : Byte)].length ∧
      (11 : Byte).toNat + [(7 : Byte)].length ≤ 12 := by decide +kernel

theorem test_hypotheses_FrameReadAnswers :
    let s := posted 1 0 900 5 0
    decodes s 0 = true ∧ (3 : Byte).toNat = (3 : FrameId).val ∧ ownerOf s 3 = some 0 ∧
      (frameOf s 3).state ≠ .free := by decide +kernel

theorem test_hypotheses_PostAnswers :
    let s := withFrame ready 47 .taken 0 0 0 0 0
    decodes s 0 = true ∧ (47 : Byte).toNat = (47 : FrameId).val ∧ ownerOf s 47 = some 3 ∧
      (frameOf s 47).state = .taken := by decide +kernel

theorem test_hypotheses_GiveBackAndReleaseFreeFrames :
    let s := withFrame (withFrame ready 0 .taken 0 0 0 0 0) 47 .collected 0 0 0 0 0
    decodes s 0 = true ∧ (0 : Byte).toNat = (0 : FrameId).val ∧ ownerOf s 0 = some 0 ∧
      (frameOf s 0).state = .taken ∧ (47 : Byte).toNat = (47 : FrameId).val ∧
      ownerOf s 47 = some 3 ∧ (frameOf s 47).state = .collected := by decide +kernel

theorem test_hypotheses_ReplyTakeAnswers :
    decodes ready 0 = true ∧ replyQueue ready 0 = [] ∧
      replyQueue (setReplyQueue ready 0 [3, 4]) 0 = 3 :: [4] := by decide +kernel

theorem test_hypotheses_IntakeHeldOff :
    inSetup leaving = true ∧ planInFlight (planning (.planningLate planForS0)) = true ∧
      postList ready 0 = [] := by decide +kernel

/-- What the statements about the intake ask of the state, with the frame at the head of P0's list. -/
def intakeReady (s : State) : Bool :=
  isRunning s && !inSetup s && !planInFlight s && !s.planner.lateMark && postList s 0 == [3] &&
    ownerOf s 3 == some 0

/-- A STANDING request for S0 in frame 3, and another held for S0 in frame 5. -/
def slotTaken : State := withFrame (posted 2 0 0 0 0) 5 (.held 0) 2 0 0 0 0

theorem test_hypotheses_IntakeRefusesByFirstFailingCheck :
    intakeReady (posted 0 0 0 0 0) = true ∧
      (frameOf (posted 0 0 0 0 0) 3).request.kind = 0 ∧
      6 ≤ (frameOf (posted 6 0 0 0 0) 3).request.kind.toNat ∧
      intakeReady (posted 1 1 0 0 0) = true ∧ (frameOf (posted 1 1 0 0 0) 3).request.kind = 1 ∧
      (∀ k : SlotId, (frameOf (posted 1 1 0 0 0) 3).request.slot.toNat = k.val →
        (recordOf ready k).owner ≠ some 0) ∧
      (∀ k : SlotId, (frameOf (posted 2 6 0 0 0) 3).request.slot.toNat = k.val →
        (recordOf ready k).owner ≠ some 0) ∧
      intakeReady slotTaken = true ∧ (frameOf slotTaken 3).request.slot.toNat = (0 : SlotId).val ∧
      (recordOf slotTaken 0).owner = some 0 ∧ heldSlot slotTaken 5 = some 0 ∧
      intakeReady (posted 5 0 0 0 5) = true ∧ (frameOf (posted 5 0 0 0 5) 3).request.kind = 5 ∧
      ∀ j : FrameId, (frameOf (posted 5 0 0 0 5) 3).request.cancel.toNat = j.val →
        ownerOf (posted 5 0 0 0 5) j = some 0 → isHeld (posted 5 0 0 0 5) j = false := by
  decide +kernel

/-- The timer running with the threshold's seconds remaining, before any late plan. -/
def atThreshold (s : State) (seconds : Nat) : State :=
  s.setPlanner { s.planner with timerRunning := true, lateThreshold := 15, secondsRemaining := seconds }

theorem test_hypotheses_IntakeHoldsAcceptedRequest :
    intakeReady (posted 3 0 0 0 0) = true ∧ intakeReady (posted 4 0 0 1441 0) = true ∧
      (∀ s, s ∈ [posted 1 0 0 0 0, atThreshold (posted 2 0 0 0 0) 15,
          atThreshold (posted 1 0 0 0 0) 14] →
        intakeReady s = true ∧ (frameOf s 3).request.slot.toNat = (0 : SlotId).val ∧
        (recordOf s 0).owner = some 0 ∧ ∀ j, heldSlot s j ≠ some 0) ∧
      (frameOf (posted 1 0 0 0 0) 3).request.kind = 1 ∧
      (posted 1 0 0 0 0).planner.timerRunning = false ∧
      (atThreshold (posted 1 0 0 0 0) 14).planner.secondsRemaining < 15 ∧
      (frameOf (posted 2 0 0 0 0) 3).request.kind = 2 ∧
      15 ≤ (atThreshold (posted 2 0 0 0 0) 15).planner.secondsRemaining ∧
      (posted 2 0 0 0 0).planner.state = .idle ∧
      planInFlight (planning (.planningLate planForS0)) = true ∧
      leaving.planner.state = .suspended ∧ RanksPermuted (posted 2 0 0 0 0) ∧
      ∀ q, q ≠ 0 → postList (posted 2 0 0 0 0) q = [] := by
  unfold RanksPermuted
  decide +kernel

/-- R92, R107: an ask that finds a plan in flight sets the mark, and the plan's completion then begins a
late plan. -/
theorem test_ask_in_planning :
    let s := latePlanAsk (planning (.planningFull planForS0))
    s.planner.lateMark = true ∧ s.planner.state = .planningFull planForS0 ∧
      (result .planCompletion s).map (fun t => (plannerStateCode t.planner.state,
        t.planner.lateMark)) = some (2, false) ∧
      (latePlanAsk leaving).planner.lateMark = false := by decide +kernel

/-- A CANCEL of frame 2 in frame 3, the source of the request in a grant state. -/
def cancelling (st : GrantState) : State :=
  let s1 := setPostList (withFrame heating 3 .posted 5 0 0 0 2) 0 [3]
  modGrant s1 0 fun g => { g with state := st }

theorem test_hypotheses_IntakeCancelsHeldRequest :
    ∀ st, st ∈ [GrantState.running, .waiting, .resting] →
      let s := cancelling st
      intakeReady s = true ∧ (frameOf s 3).state = .posted ∧ (frameOf s 3).request.kind = 5 ∧
        (frameOf s 3).request.cancel.toNat = (2 : FrameId).val ∧ ownerOf s 2 = some 0 ∧
        isHeld s 2 = true ∧ heldSlot s 2 = some 0 ∧ heldFor s 0 = some 2 ∧
        (grantOf s 0).state = st := by decide +kernel

theorem test_hypotheses_ScanStartBeginsReads :
    let s := (scanning [] []).setScanner { (scanning [] []).scanner with scan := none }
    isRunning s = true ∧ s.scanner.scan = none ∧ (∃ n : ProbeId, (s.scanner.probes[n]).layer ≠ none) ∧
      isRunning (timed ready 40) = true ∧ (timed ready 40).scanner.scan = none ∧
      (∀ n : ProbeId, ((timed ready 40).scanner.probes[n]).layer = none) ∧
      (timed ready 40).model.scanCompleted = true := by decide +kernel

/-- Three bytes end the read of slot 1, whose address is 2. -/
theorem test_bytes_end_read (toRead : List ProbeId) (results : List (ProbeId × ReadResult)) :
    endsRead (scanning toRead results) 1 (.probeRead 0xBC 0x02 0x3F) (.good 700) :=
  .inl ⟨0xBC, 0x02, 0x3F, rfl, show _ = keptReading 2 0xBC 0x02 0x3F by decide⟩

theorem test_hypotheses_ReadResultKeptInScan :
    (∃ scan, (scanning [1, 2] []).scanner.scan = some scan ∧ scan.toRead = 1 :: 2 :: []) ∧
      endsRead (scanning [1, 2] []) 1 (.probeRead 0xBC 0x02 0x3F) (.good 700) ∧
      endsRead (scanning [1, 2] []) 1 .answerWindowClose .fault ∧ ready.scanner.scan = none :=
  ⟨⟨_, rfl, rfl⟩, test_bytes_end_read _ _, .inr ⟨rfl, rfl⟩, rfl⟩

/-- A scan whose last slot is read, in a part whose first scan has completed. -/
def lastRead (probe : ProbeSlot) : State :=
  let s := timed (scanning [1] [(0, .good 900)]) 40
  s.setScanner { s.scanner with probes := s.scanner.probes.set 1 probe }

/-- Slot 1 at layer 7 in a probe state. -/
def probeIn (st : ProbeState) (count : Nat) : ProbeSlot :=
  { address := 2, layer := some 7, state := st, lastValid := 700, holdCount := count }

theorem test_hypotheses_CompletionUpdatesProbeSlots :
    (∃ scan, (lastRead (probeIn .holding 3)).scanner.scan = some scan ∧ scan.toRead = [1] ∧
        scan.holdLimit = 3) ∧
      endsRead (lastRead (probeIn .holding 3)) 1 .answerWindowClose .fault ∧
      ([((0 : ProbeId), ReadResult.good 900), (1, .fault)].find? fun x => x.1 == 1) =
        some (1, .fault) ∧
      ([((0 : ProbeId), ReadResult.good 900), (1, .good 700)].find? fun x => x.1 == 1) =
        some (1, .good 700) ∧
      ([((0 : ProbeId), ReadResult.good 900), (1, .fault)].find? fun x => x.1 == 2) = none ∧
      ∀ st, st ∈ [ProbeState.unread, .ok, .holding, .failed] →
        ((lastRead (probeIn st 3)).scanner.probes[(1 : ProbeId)]).state = st ∧ st ≠ .unused := by
  refine ⟨⟨_, rfl, rfl, rfl⟩, .inr ⟨rfl, rfl⟩, by decide, by decide, by decide, by decide +kernel⟩

theorem test_hypotheses_CompletionFormsModel :
    (∃ scan, (heatingAtScan 900).scanner.scan = some scan ∧ scan.toRead = [1]) ∧
      endsRead (heatingAtScan 900) 1 .answerWindowClose .fault ∧
      (heatingAtScan 900).model.scanCompleted = true ∧ inSetup (scanning [1] []) = false ∧
      (∀ a b : ProbeId, ((heatingAtScan 900).scanner.probes[a]).layer =
          ((heatingAtScan 900).scanner.probes[b]).layer →
        ((heatingAtScan 900).scanner.probes[a]).layer ≠ none → a = b) ∧
      (grantOf (heatingAtScan 900) 0).state = .running := by
  refine ⟨⟨_, rfl, rfl⟩, .inr ⟨rfl, rfl⟩, rfl, rfl, by decide +kernel, by decide +kernel⟩

/-- R49, R81: at 900 the target of 900 is reached, that of 901 is not. -/
theorem test_target_reached :
    (result .answerWindowClose (heatingAtScan 900)).map (fun t => ((frameOf t 2).state,
      (frameOf t 2).result.outcome, (frameOf t 2).result.endCause, (grantOf t 0).state)) =
        some (.reported, .done, .target, .resting) ∧
      (result .answerWindowClose (heatingAtScan 901)).map (fun t => ((frameOf t 2).state,
        (grantOf t 0).state)) = some (.held 0, .running) := by decide +kernel

/-- R15: a completion leaves a WAITING source and its request as they were, in FULL and in NONE. -/
theorem test_completion_keeps_waiting :
    let s (scanner : Scanner) := (planning .idle).setScanner scanner
    heldSlot (planning .idle) 2 = some 0 ∧ (grantOf (planning .idle) 0).state = .waiting ∧
      (∀ scanner, scanner ∈ [(heatingAtScan 900).scanner, (scanning [1] []).scanner] →
        (result .answerWindowClose (s scanner)).map (fun t => (grantOf t 0, frameOf t 2)) =
          some (grantOf (planning .idle) 0, frameOf (planning .idle) 2)) := by decide +kernel

/-- The request of frame 2 is held alone for S0. -/
theorem test_request_held_alone : holdsAlone (heatingAtScan 900) 2 0 ∧
    heldFor (modFrame (heatingAtScan 900) 2 fun _ => clearedFrame .free) 0 = none := by
  unfold holdsAlone
  decide +kernel

theorem test_hypotheses_LayersInterpolate :
    ([((4 : LayerId), (900 : Int)), (7, 700)].Pairwise fun x y => x.1 < y.1) ∧
      [((4 : LayerId), (900 : Int)), (7, 700)] = [] ++ (4, 900) :: (7, 700) :: [] ∧
      (4 : LayerId) < 5 ∧ (6 : LayerId) < 7 ∧ (3 : LayerId) < 4 ∧ (7 : LayerId) < 8 := by decide

theorem test_hypotheses_FirstCompletionStartsTimer :
    (scanning [1] []).model.scanCompleted = false ∧ inSetup (scanning [1] []) = false ∧
      (∃ scan n r, (scanning [1] []).scanner.scan = some scan ∧ scan.toRead = [n] ∧
        endsRead (scanning [1] []) n (.probeRead 0xBC 0x02 0x3F) r) ∧
      ready.model.scanCompleted = false ∧ isRunning ready = true ∧ ready.scanner.scan = none ∧
      ∀ n : ProbeId, (ready.scanner.probes[n]).layer = none :=
  ⟨rfl, rfl, ⟨_, 1, _, rfl, rfl, test_bytes_end_read _ _⟩, rfl, rfl, rfl, by decide +kernel⟩

theorem test_hypotheses_CompletionJudgesOvertemperature :
    (∃ scan, (lastRead (probeIn .ok 0)).scanner.scan = some scan ∧ scan.toRead = [1]) ∧
      endsRead (lastRead (probeIn .ok 0)) 1 .answerWindowClose .fault ∧
      (lastRead (probeIn .ok 0)).model.scanCompleted = true ∧
      (lastRead (probeIn .ok 0)).safety.overtemp = false :=
  ⟨⟨_, rfl, rfl⟩, .inr ⟨rfl, rfl⟩, rfl, rfl⟩

/-- A completion that makes overtemperature ACTIVE: the last reading is 1472, the limit. -/
theorem test_overtemperature_at_the_limit :
    (result (.probeRead 0xC0 0x05 0x38) (lastRead (probeIn .ok 0))).map
      (fun t => (t.safety.overtemp, t.model.layers[11])) = some (true, 1472) := by decide +kernel

theorem test_hypotheses_PowerNeedIsCeiling :
    65535 ≤ 65535 ∧ 60 ≤ 60 ∧ powerNeed 65535 60 = 65535 ∧ powerNeed 1 65535 = 1 ∧
      powerNeed 0 60 = 0 := by decide

theorem test_hypotheses_ChargePeriodAdvances :
    let s := timed ready 2
    isRunning s = true ∧ s.planner.timerRunning = true ∧ 1 < s.planner.secondsRemaining ∧
      ready.planner.timerRunning = false ∧ isRunning State.reset = false ∧
      (timed ready 1).planner.secondsRemaining = 1 ∧ (timed ready 1).model.scanCompleted = true ∧
      inSetup (timed ready 1) = false ∧ holderFallsSilent (timed ready 1) = false := by
  decide +kernel

theorem test_factory_in_range : imageInRange factoryImage := by
  refine ⟨fun f h => ?_, fun i h gap => ?_⟩
  · have stored : storedValue f.form f.factory = f.factory := by
      revert f
      decide +kernel
    rw [fieldValue_factoryImage f h, stored]
  · rw [factoryImage, imageByte_ofFn _ i h]
    simp [gap]

/-- The states from which the statements about a plan start: ranks a permutation, the image in range. -/
theorem test_plan_inputs_in_order :
    (∀ s, s ∈ [scanning [1] [], timed ready 1, planning (.planningFull planForS0),
      planning (.planningLate planForS0)] → RanksPermuted s) ∧
    imageInRange (scanning [1] []).store.image ∧ imageInRange (timed ready 1).store.image ∧
    imageInRange (planning (.planningFull planForS0)).store.image := by
  refine ⟨?_, test_factory_in_range, test_factory_in_range, test_factory_in_range⟩
  unfold RanksPermuted
  decide +kernel

/-- R99: outside a block, the full plan of a period start grants S0 its rated power again. -/
theorem test_full_plan_grants :
    ¬isBlocked (planning .idle |>.setPlanner
      { (planning .idle).planner with snapshot := { ready.planner.snapshot with model := .full } }) ∧
    (result .periodStart (timed heating 1)).map (fun t => match t.planner.state with
      | .planningFull plan => (plan.grants.map fun e => (e.slot, e.power, e.target), plan.revocations)
      | _ => ([], [])) = some ([(0, 3000, 900)], []) := by
  unfold isBlocked
  decide +kernel

/-- A holder that falls silent at the next period start: its count is one below the timeout of 3. -/
def holderFading : State :=
  modPort (timed (inSetupOf ready) 1) 0 fun p => { p with active := true, silence := 2 }

theorem test_holder_falls_silent :
    isRunning holderFading = true ∧ holderFading.planner.timerRunning = true ∧
      holderFading.planner.secondsRemaining = 1 ∧ holderFading.model.scanCompleted = true ∧
      holderFallsSilent holderFading = true ∧
      holderFallsSilent (modPort holderFading 0 fun p => { p with silence := 1 }) = false ∧
      inSetup holderFading = true := by decide +kernel

theorem test_holder_with_probe :
    (∃ n : ProbeId, ((scanning [] []).scanner.probes[n]).layer ≠ none) ∧
      RanksPermuted (holderFading.setScanner (scanning [] []).scanner) ∧
      ImagesInRange (holderFading.setScanner (scanning [] []).scanner) ∧
      holderFallsSilent (holderFading.setScanner (scanning [] []).scanner) = true := by
  refine ⟨⟨0, by decide +kernel⟩, ?_, ⟨test_factory_in_range, ?_⟩, by decide +kernel⟩
  · unfold RanksPermuted
    decide +kernel
  · rintro setup h
    obtain rfl := Option.some.inj h
    exact test_factory_in_range

/-- What the statements about a period start ask of the state. -/
def atPeriodStart (s : State) : Bool :=
  isRunning s && s.planner.timerRunning && s.planner.secondsRemaining == 1 && !holderFallsSilent s

/-- S0 in a grant state with a rest count, a second before the period start. -/
def resting (st : GrantState) (count : Nat) : State :=
  modGrant (timed heating 1) 0 fun g => { g with state := st, restCount := count }

theorem test_hypotheses_PeriodStartCountsSources :
    atPeriodStart (resting .running 0) = true ∧ (grantOf (resting .running 0) 0).state = .running ∧
      atPeriodStart (resting .resting 2) = true ∧ 1 < (grantOf (resting .resting 2) 0).restCount ∧
      atPeriodStart (resting .resting 1) = true ∧ (grantOf (resting .resting 1) 0).restCount ≤ 1 ∧
      heldSlot (resting .resting 1) 2 = some 0 ∧
      (∀ j, heldSlot (resting .resting 1) j = some 0 →
        ¬(frameOf (resting .resting 1) j).request.span.toNat ≤ min 65535 (0 + 1)) ∧
      (let s := modFrame (resting .resting 1) 2 fun fr => { fr with state := .held 4 }
       heldSlot s 2 = some 0 ∧ (frameOf s 2).request.kind = 1 ∧ (frameOf s 2).request.span ≠ 0 ∧
        (frameOf s 2).state = .held 4 ∧ (frameOf s 2).request.span.toNat ≤ min 65535 (4 + 1)) ∧
      heldFor (timed ready 1) 0 = none ∧ (grantOf (timed ready 1) 1).state = .idle ∧
      (grantOf (timed ready 1) 5).state = .unused := by decide +kernel

/-- R51, R82: S0 RUNNING under a request of span 5 that is 4 periods old, alone for its slot: it lapses, and
one of 3 periods does not. -/
theorem test_request_lapses :
    let s := modFrame (resting .running 0) 2 fun fr => { fr with state := .held 4 }
    lapses s 2 ∧ holdsAlone s 2 0 ∧ (grantOf s 0).state = .running ∧ atPeriodStart s = true ∧
      (∀ i, heldSlot (resting .running 0) i = some 0 → ¬lapses (resting .running 0) i) ∧
      (result .periodStart s).map (fun t => ((frameOf t 2).result.endCause, (grantOf t 0).state)) =
        some (.requestEnd, .resting) := by
  refine ⟨⟨rfl, by decide, 4, by decide +kernel, by decide⟩, ?_, by decide +kernel,
    by decide +kernel, ?_, by decide +kernel⟩
  · unfold holdsAlone
    decide +kernel
  · rintro i h ⟨_, _, age, held, due⟩
    have only : ∀ i, heldSlot (resting .running 0) i = some 0 → i = 2 := by decide +kernel
    obtain rfl := only i h
    have young : (frameOf (resting .running 0) 2).state = .held 0 := by decide +kernel
    obtain rfl := FrameState.held.inj (young.symm.trans held)
    exact absurd due (by decide +kernel)

/-- R82: a WAITING source whose request expires goes to IDLE, and any other WAITING source stays. -/
theorem test_waiting_request_lapses :
    let s := modFrame (resting .waiting 0) 2 fun fr => { fr with state := .held 4 }
    atPeriodStart s = true ∧ (grantOf s 0).state = .waiting ∧
      (result .periodStart s).map (fun t => (grantOf t 0).state) = some .idle ∧
      (result .periodStart (resting .waiting 0)).map (fun t => (grantOf t 0).state) =
        some .waiting := by decide +kernel

theorem test_hypotheses_PeriodStartCountsSilence :
    let s := modPort (timed heating 1) 0 fun p => { p with silence := 2 }
    atPeriodStart s = true ∧ (portOf s 0).active = true ∧ 1 ≤ s.ports.timeout ∧
      (result .periodStart s).map (fun t => (portActive t 0, (grantOf t 0).state)) =
        some (false, .resting) ∧
      (portOf s 1).active = false ∧ (s.setPorts { s.ports with timeout := 0 }).ports.timeout = 0 := by
  decide +kernel

/-- The cycle in a state with its hold, interval and deadline at 2 and its counts at 1. -/
def cycling (st : CycleState) (floorTemp : Int) : State :=
  (timed ready 1).setCycle
    { state := st, sinceSuccess := 1, sinceDue := 1, holdCount := 1, interval := 2, hold := 2,
      deadline := 2, tDis := floorTemp, floor := 8 }

theorem test_hypotheses_PeriodStartEvaluatesCycle :
    atPeriodStart (cycling .due 0) = true ∧
      ((cycling .due 0).model.state ≠ .none ∧
        ∀ i : LayerId, 8 ≤ i.val → (cycling .due 0).cycle.tDis ≤ (cycling .due 0).model.layers[i]) ∧
      ¬(∀ i : LayerId, 8 ≤ i.val → (cycling .due 1).cycle.tDis ≤ (cycling .due 1).model.layers[i]) ∧
      (result .periodStart (cycling .due 0)).map (·.cycle.state) = some .counting ∧
      (result .periodStart (cycling .due 1)).map (fun t => (t.cycle.state, t.cycle.sinceDue)) =
        some (.due, 0) ∧
      (result .periodStart (cycling .counting 1)).map (fun t => (t.cycle.state, t.cycle.sinceSuccess)) =
        some (.due, 2) ∧
      (result .periodStart (cycling .off 1)).map (·.cycle.sinceSuccess) = some 1 := by decide +kernel

/-- A held request of a kind with an age and a span in frame 2. -/
def aged (kind : Byte) (age : Nat) (span : Word) : State :=
  withFrame (timed ready 1) 2 (.held age) kind 0 900 span 0

theorem test_hypotheses_PeriodStartExpiresRequests :
    ∀ kind, kind ∈ [(1 : Byte), 2, 3, 4] →
      atPeriodStart (aged kind 4 5) = true ∧ (frameOf (aged kind 4 5) 2).state = .held 4 ∧
        (frameOf (aged kind 4 5) 2).request.kind = kind ∧
        (frameOf (aged kind 4 5) 2).request.span.toNat ≤ min 65535 (4 + 1) ∧
        ¬(frameOf (aged kind 3 5) 2).request.span.toNat ≤ min 65535 (3 + 1) := by decide +kernel

theorem test_hypotheses_PlanCompletionApplies :
    let s := planning (.planningFull planForS0)
    s.planner.state = .planningFull planForS0 ∧ ready.planner.state = .idle ∧
      s.planner.lateMark = false ∧
      (∀ e, e ∈ planForS0.grants → e.slot ∉ planForS0.revocations ∧ isHeld s e.frame = true ∧
        (grantOf s e.slot).state = .waiting ∧ e.wasRunning = false ∧
        grantBarred s e.slot = false) ∧
      planForS0.grants.Nodup ∧ 1 ∈ planForS0.revocations ∧ (grantOf s 1).state = .running := by
  decide +kernel

/-- R104: the entry of the plan is taken, and the plan names each slot once. -/
theorem test_plan_formed : PlanFormed planForS0 := by
  unfold PlanFormed
  decide

theorem test_mark_set_in_flight :
    let s := planning (.planningFull planForS0)
    let marked := s.setPlanner { s.planner with lateMark := true }
    marked.planner.state = .planningFull planForS0 ∧ marked.planner.lateMark = true ∧
      marked.planner.lateThreshold ≤ marked.planner.secondsRemaining ∧
      (s.setPlanner { s.planner with secondsRemaining := 14 }).planner.secondsRemaining <
        s.planner.lateThreshold := by decide +kernel

/-- R104: with its request cancelled, the entry is dropped. -/
theorem test_dropped_entry :
    let s := withFrame (planning (.planningFull planForS0)) 2 .free 1 0 900 5 0
    (result .planCompletion s).map (fun t => grantOf t 0) = some (grantOf s 0) := by decide +kernel

theorem test_source_may_run : mayRun (planning (.planningFull planForS0)) 0 :=
  ⟨rfl, rfl, by decide +kernel, rfl, ⟨0, rfl, rfl⟩, fun paid => absurd paid (by decide +kernel)⟩

/-- The plan that continues the grant of S0. -/
def continuingPlan : Plan :=
  { planForS0 with grants := planForS0.grants.map fun e => { e with wasRunning := true } }

theorem test_continued_grant_keeps_run_count :
    let s := modGrant heating 0 fun g => { g with runCount := 7 }
    (result .planCompletion (s.setPlanner { s.planner with
      state := .planningFull continuingPlan })).map
      (fun t => ((grantOf t 0).state, (grantOf t 0).runCount)) = some (.running, 7) := by
  decide +kernel

theorem test_hypotheses_LatePlanCompletionApplies :
    let s := planning (.planningLate planForS0)
    s.planner.state = .planningLate planForS0 ∧ ready.planner.state = .idle ∧
      (s.setPlanner { s.planner with secondsRemaining := 14 }).planner.secondsRemaining <
        s.planner.lateThreshold ∧
      s.planner.lateThreshold ≤
        (s.setPlanner { s.planner with secondsRemaining := 15 }).planner.secondsRemaining ∧
      s.planner.lateMark = false ∧ (grantOf s 0).state = .waiting ∧ isHeld s 2 = true := by
  decide +kernel

/-- X0 with a settle in flight, X1 with a settle time of 0. -/
def settling : State :=
  ready.setSafety
    { ready.safety with
      x0 := { ready.safety.x0 with pin := .high, settling := some { target := .high, time := 10 } }
      x1 := { ready.safety.x1 with settleTime := 0 } }

theorem test_hypotheses_InputLinesSettle :
    Level.low = (lineOf ready .x0).pin ∧ Level.high ≠ (lineOf ready .x0).pin ∧
      isRunning State.reset = false ∧ Level.high ≠ (lineOf State.reset .x0).pin ∧
      isRunning ready = true ∧ Level.high ≠ (lineOf ready .x0).settled ∧
      (lineOf ready .x0).settling = none ∧ 1 ≤ (lineOf ready .x0).settleTime ∧
      Level.low ≠ (lineOf settling .x0).pin ∧ Level.low = (lineOf settling .x0).settled ∧
      (lineOf settling .x0).settling = some { target := .high, time := 10 } ∧
      Level.high ≠ (lineOf settling .x1).settled ∧ (lineOf settling .x1).settling = none ∧
      (lineOf settling .x1).settleTime = 0 := by decide +kernel

theorem test_hypotheses_LinesEndGrants :
    ∀ l, l ∈ [Line.x0, .x1] →
      let s := setLine (planning .idle) l { lineOf ready l with
        pin := .high, settling := some { target := .high, time := 2 } }
      isRunning s = true ∧ (lineOf s l).settling = some { target := .high, time := 2 } ∧
        lineActive s l = false ∧ Level.high = (lineOf s l).activeLevel ∧
        (grantOf s 1).state = .running ∧ heldFor s 1 = some 12 := by decide +kernel

/-- R123: with a settle time of 0 the pin change makes the line active. -/
theorem test_pin_change_takes_active_level :
    takesActiveLevel settling .x1 (.inputPinChange .x1 .high) ∧ isRunning settling = true ∧
      lineActive settling .x1 = false ∧
      takesActiveLevel settling .x0 (.settleExpiry .x0) ∧ lineActive settling .x0 = false :=
  ⟨.inr ⟨rfl, by decide, rfl, rfl⟩, rfl, by decide +kernel, .inl ⟨rfl, _, rfl, rfl⟩,
    by decide +kernel⟩

theorem test_line_kind_subscribed :
    subscribed (listening ready) 0 .inputX0 = true ∧ modeOf (listening ready) .inputX0 = .level ∧
      modeOf (listening ready) .setupChange = .edge := by decide +kernel

theorem test_hypotheses_AlertTakeAnswers :
    let s := ready.setAlerts { ready.alerts with
      pendingKinds := ready.alerts.pendingKinds.set 0 [.overtemp, .setupChange] }
    decodes ready 0 = true ∧ pendingOf ready 0 = [] ∧ AlertKind.overtemp ∈ pendingOf s 0 ∧
      ∀ j, j ∈ pendingOf s 0 → AlertKind.overtemp.number ≤ j.number := by decide +kernel

theorem test_hypotheses_AlertDoneAnswers :
    decodes ready 0 = true ∧ 16 ≤ (16 : Byte).toNat ∧
      (15 : Byte).toNat = AlertKind.setupChange.number.val ∧
      AlertKind.setupChange ∉ awaitingOf ready 0 ∧
      AlertKind.overtemp ∈ awaitingOf (ready.setAlerts { ready.alerts with
        awaiting := ready.alerts.awaiting.set 0 [.overtemp] }) 0 := by decide +kernel

/-- The selector of P0 at an offset. -/
def selecting (offset : Nat) : State := modPort ready 0 fun p => { p with selector := offset }

theorem test_hypotheses_SelectAndSetRead :
    decodes ready 0 = true ∧ (255 : Word).toNat < 256 ∧ 256 ≤ (256 : Word).toNat ∧
      256 < (portOf (selecting 2) 0).selector + (255 : Byte).toNat ∧
      (portOf (selecting 1) 0).selector + (255 : Byte).toNat ≤ 256 := by decide +kernel

theorem test_hypotheses_SetWriteStoresClampedFields :
    decodes (selecting 0x058) 0 = true ∧ 256 < (portOf (selecting 255) 0).selector + [(1 : Byte), 2].length ∧
      (portOf (selecting 255) 0).selector + [(1 : Byte)].length ≤ 256 ∧
      ∀ f, f ∈ fieldTable → f.offset < 0x058 + [(1 : Byte), 2].length →
        0x058 < f.offset + fieldWidth f → writeStatus (selecting 0x058) 0 f.access = .ok := by
  decide +kernel

/-- R146: the write of the mask of P0 sets its bits of OVERTEMP and SETTINGS-LOST, and clears them. -/
theorem test_mask_write_changes_subscription :
    let s := selecting 0x0C0
    subscribed s 0 .overtemp = false ∧ subscribed s 0 .settingsLost = false ∧
      (result (.setWrite 0 [0x01, 0x20]) s).map (fun t => (subscribed t 0 .overtemp,
        subscribed t 0 .settingsLost)) = some (true, true) ∧
      subscribed (listening s) 0 .overtemp = true ∧
      (result (.setWrite 0 [0, 0]) (listening s)).map (fun t => subscribed t 0 .overtemp) =
        some false ∧
      modeOf s .overtemp = .level ∧ modeOf s .settingsLost = .edge := by decide +kernel

/-- X0 active, S1 RUNNING for P1 under the request of frame 12, and the selector of P1 at the block-obey of
S1. -/
def obeying : State :=
  let s := modPort (planning .idle) 1 fun p => { p with selector := recordOffset 1 + 9 }
  setLine s .x0 { lineOf s .x0 with settled := .high }

/-- R42, R170: P1 writes the block-obey of its PAID source to yes, and the grant ends. -/
theorem test_block_obey_write :
    decodes obeying 1 = true ∧ lineActive obeying .x0 = true ∧
      (grantOf obeying 1).state = .running ∧ (recordOf obeying 1).sourceClass = .paid ∧
      heldFor obeying 1 = some 12 ∧
      (result (.setWrite 1 [1]) obeying).map (fun t => (blockObey t.store.image 1,
        (frameOf t 12).result.endCause, (grantOf t 1).state)) =
          some (true, .paidBlock, .resting) ∧
      (result (.setWrite 1 [0]) obeying).map (fun t => grantOf t 1) =
        some (grantOf obeying 1) := by decide +kernel

theorem test_hypotheses_SetWritePermission :
    decodes (selecting 0x059) 0 = true ∧
      (portOf (selecting 0x059) 0).selector + [(1 : Byte), 2].length ≤ 256 ∧
      (fieldTable.filter fun g => decide (g.offset < 0x059 + 2) &&
        decide (0x059 < g.offset + fieldWidth g)) =
        [⟨0x059, .flag, .liveOf 0, 0⟩] ++ ⟨0x05A, .byte 0 255, .setupOnly, 0⟩ :: [] ∧
      writeStatus (selecting 0x059) 0 (.liveOf 0) = .ok ∧
      writeStatus (selecting 0x059) 0 .setupOnly ≠ .ok ∧
      ∀ g, g ∈ fieldTable.filter (fun g => decide (g.offset < 0x058 + 2) &&
          decide (0x058 < g.offset + fieldWidth g)) →
        writeStatus (selecting 0x058) 0 g.access = .ok := by decide +kernel

theorem test_hypotheses_StoreWritesPage :
    decodes ready 0 = true ∧ inSetup leaving = true ∧ inSetup ready = false ∧
      ready.store.storing = none ∧
      (ready.setStore { ready.store with storing := some factoryImage }).store.storing =
        some factoryImage := ⟨rfl, rfl, rfl, rfl, rfl⟩

theorem test_hypotheses_SetupEnterSuspends :
    decodes heating 0 = true ∧ inSetup leaving = true ∧ inSetup heating = false ∧
      heating.store.storing = none ∧ (grantOf heating 0).state = .running ∧
      heldFor heating 0 = some 2 := by decide +kernel

/-- The part in SETUP with a set of bytes written over the image. -/
def changed (offset : Nat) (data : List Byte) : State :=
  (inSetupOf ready).setStore { (inSetupOf ready).store with
    image := writtenImage factoryImage offset data }

/-- The temperatures of the factory image pass the first check, and a hysteresis of Tlimit − Tmax = 112
fails the second. -/
theorem test_hypotheses_SetupExitChecks :
    decodes leaving 0 = true ∧ ready.store.setup = none ∧ setupHolder leaving = some 0 ∧
      checkTemperatures (changed 0x02C [112, 0]).store.image = true ∧
      checkHysteresis (changed 0x02C [112, 0]).store.image = false ∧
      checkHysteresis (changed 0x02C [111, 0]).store.image = true := by decide +kernel

theorem test_hypotheses_SetupExitTakesCopies :
    decodes leaving 0 = true ∧ setupHolder leaving = some 0 ∧
      (leaving.store.setup.map (failingCheck leaving)) = some none ∧
      leaving.planner.timerRunning = leaving.model.scanCompleted ∧
      (∀ k, (grantOf leaving k).state ≠ .running) := by decide +kernel

/-- In the factory image S0 has no owner; with P1 as its owner it is a new source. -/
theorem test_slots_emptied_and_renewed :
    slotEmptied leaving 0 ∧ slotRenewed (changed 0x050 [1]) 0 ∧
      (changed 0x050 [1]).store.setup.map (failingCheck (changed 0x050 [1])) = some none ∧
      ¬slotRenewed leaving 5 ∧ ¬slotEmptied leaving 5 := by
  unfold slotEmptied slotRenewed
  decide +kernel

/-- A probe at layer 4 in the image, the timer not running. -/
theorem test_exit_with_probe :
    let s := changed 0x011 [4]
    (∃ n, probeLayer s.store.image n ≠ none) ∧ s.planner.timerRunning = false ∧
      s.planner.timerRunning = s.model.scanCompleted ∧
      s.store.setup.map (failingCheck s) = some none ∧
      (s.scanner.probes[(0 : ProbeId)]).layer ≠ probeLayer s.store.image 0 ∧
      (s.scanner.probes[(1 : ProbeId)]).layer = probeLayer s.store.image 1 := by
  refine ⟨⟨0, by decide +kernel⟩, ?_⟩
  decide +kernel

/-- R52, R174: with the timer running, a WAITING slot that the exit leaves its owner stays WAITING, and one at
the end of its rest leaves it for WAITING. -/
theorem test_exit_keeps_other_slots :
    let s (st : GrantState) (rest : Nat) : State :=
      modGrant (withFrame ((changed 0x050 [0, 0, 0, 2]).setPlanner
          { (inSetupOf ready).planner with timerRunning := true, secondsRemaining := 40 }) 2
        (.held 0) 2 0 0 0 0) 0 fun g => { g with state := st, restCount := rest }
    let s (st : GrantState) (rest : Nat) : State :=
      (s st rest).setModel { (s st rest).model with scanCompleted := true }
    ¬slotRenewed (s .waiting 0) 0 ∧ ¬slotEmptied (s .waiting 0) 0 ∧
      heldSlot (s .waiting 0) 2 = some 0 ∧
      (result (.setupExit 0) (s .waiting 0)).map (fun t => (grantOf t 0).state) =
        some .waiting ∧
      (result (.setupExit 0) (s .resting 1)).map (fun t => (grantOf t 0).state) =
        some .waiting := by
  unfold slotEmptied slotRenewed
  decide +kernel

/-- R63: an exit that changes a share rebuilds the free lists of every port in ascending order; one that
changes none leaves their order. -/
theorem test_exit_free_lists :
    let s (first : Byte) := setFreeList (changed 0x044 [first, 3]) 0 [5, 2]
    copiedShares (s 12).store.image ≠ (s 12).pool.shares ∧
      copiedShares leaving.store.image = leaving.pool.shares ∧
      (result (.setupExit 0) (s 2)).map (fun t => (freeList t 0, freeList t 1)) =
        some ([0, 1], [2, 3, 4]) ∧
      (result (.setupExit 0) (setFreeList leaving 0 [5, 2])).map (fun t => freeList t 0) =
        some [5, 2] := by decide +kernel

/-- R83, R41: the held request of a renewed slot ends WITHDRAWN, and its source is IDLE. -/
theorem test_exit_withdraws :
    let s := withFrame (changed 0x050 [1]) 2 (.held 3) 1 0 900 5 0
    heldSlot s 2 = some 0 ∧ (result (.setupExit 0) s).map (fun t => ((frameOf t 2).state,
      (frameOf t 2).result.outcome, grantOf t 0)) =
        some (.reported, .withdrawn, clearedGrant .idle 0) := by decide +kernel

/-- R161: with a timeout of 0 before the exit and 3 after it every count starts from 0. -/
theorem test_exit_restarts_counts :
    let s := changed 0x011 [4]
    let counted (timeout : Nat) := s.setPorts
      { ports := s.ports.ports.set 1 { active := true, silence := 2, selector := 0, response := none }
        timeout := timeout }
    (result (.setupExit 0) (counted 0)).map (fun t => (portOf t 1).silence) = some 0 ∧
      (result (.setupExit 0) (counted 4)).map (fun t => (portOf t 1).silence) = some 2 := by
  decide +kernel

/-- R161: with the timer running, the period start at the end of setup counts on from the count kept, and
a count already at the lowered timeout makes its port SILENT. -/
theorem test_exit_lowers_timeout :
    let s := leaving.setPorts
      { ports := leaving.ports.ports.set 1 { active := true, silence := 3, selector := 0, response := none }
        timeout := 9 }
    (result (.setupExit 0) s).map (fun t => ((portOf t 1).silence, (portOf t 1).active)) =
      some (4, false) := by decide +kernel

theorem test_hypotheses_SetupAbandonRestores :
    decodes leaving 0 = true ∧ ready.store.setup = none ∧ setupHolder leaving = some 0 ∧
      (1 : PortId) ≠ 0 ∧ leaving.planner.timerRunning = leaving.model.scanCompleted ∧
      (result (.setupAbandon 0) (leaving.setScanner (scanning [] []).scanner)).map
        (fun t => t.scanner.scan.map (·.toRead)) = some (some [0, 1]) := by
  decide +kernel

/-- R146, R175: the restore unsubscribes what setup had subscribed to, and subscribes again to what setup
had unsubscribed from; a held SETTINGS-LOST is then released. -/
theorem test_abandon_settles_masks :
    let subscribed1 := listening leaving
    let restored : State := leaving.setStore { leaving.store with
      setup := some { holder := 0, entrySnapshot := (listening leaving).store.image } }
    let lost := restored.setAlerts { restored.alerts with
      heldLost := restored.alerts.heldLost.set 1 true }
    subscribed subscribed1 1 .overtemp = true ∧ maskHas factoryImage 1 .overtemp = false ∧
      subscribed lost 1 .settingsLost = false ∧ lost.alerts.heldLost[1] = true ∧
      modeOf lost .settingsLost = .edge ∧ modeOf lost .overtemp = .level ∧
      (result (.setupAbandon 0) lost).map (fun t =>
        ((pendingOf t 1).contains .settingsLost, t.alerts.heldLost[1])) =
          some (true, false) := by decide +kernel

theorem test_hypotheses_PortResetPutsPortInOrder :
    decodes heating 0 = true ∧ planInFlight heating = false ∧
      planInFlight (planning (.planningFull planForS0)) = true ∧ ownerOf heating 2 = some 0 ∧
      heldSlot heating 2 = some 0 ∧ ownerOf heating 12 ≠ some 0 := by decide +kernel

/-- R84: the bytes of a discarded request stay as they were, its cause field too. -/
theorem test_port_reset_keeps_bytes :
    (result (.portReset 0) heating).map (fun t => frameOf t 2) =
      some { frameOf heating 2 with state := .free } := by decide +kernel

theorem test_hypotheses_ResetsRecordCause :
    ready.part.rstnHeld = false ∧ ready.part.supplyHeld = false ∧ (∀ p, restartArmedAt ready p = false) ∧
      decodes ready 0 = true ∧ ready.store.setup = none ∧ setupHolder leaving = some 0 ∧
      restartArmedAt (restarting leaving 0) 0 = true := by decide +kernel

/-- R180: a RESTART accepted from P1 while one of P0 waits for its select leaves that one armed, and the
rise of either select brings the reset. -/
theorem test_two_restarts_armed :
    let s := (inTransaction (restarting leaving 0)).setStore { leaving.store with
      setup := some { holder := 1, entrySnapshot := leaving.store.image } }
    (result (.restart 1) s).map (fun t => ((restartArmedAt t 0, restartArmedAt t 1),
      (selectRises 0 t).pending)) = some ((true, true), [.restartReset]) := by decide +kernel

/-- R154, R180: what the rise of the select of P0 brings into the queue: the reset of an accepted RESTART,
the discarding of a POST without its argument, or nothing. -/
theorem test_select_rises :
    let low := inTransaction ready
    (wireOf low 0).select = .low ∧ decodes low 0 = true ∧
      decodeTransaction 0 (wireOf (clocked 0x13 low) 0).received = .incomplete ∧
      (selectRises 0 (clocked 0x13 low)).pending = [.transactionDiscarded 0] ∧
      (selectRises 0 (restarting low 0)).pending = [.restartReset] ∧
      (selectRises 0 low).pending = [] := by decide +kernel

theorem test_hypotheses_ResetsReturnBlocks :
    ready.part.rstnHeld = false ∧ ready.part.supplyHeld = false ∧ ready.store.storing = none ∧
      (wireOf (inTransaction ready) 0).select = .low ∧
      restartArmedAt (restarting ready 0) 0 = true := by decide +kernel

theorem test_hypotheses_StartUpLoadBringsImage :
    isRunning State.reset = false ∧ State.reset.part.rstnHeld = false ∧
      State.reset.part.supplyHeld = false ∧ State.reset.store.setup = none ∧
      (∃ page, State.reset.store.page = .holds page ∧ pageGood page = false) ∧
      isRunning ready = true :=
  ⟨rfl, rfl, rfl, rfl, ⟨_, rfl, by rw [pageGood, test_check_word_of_erased_page]; decide +kernel⟩, rfl⟩

/-- R177: a page that holds an image with its check word is good. -/
theorem test_good_page :
    let page := withCheckWord (writtenImage factoryImage 0x011 [4])
    pageGood page = true ∧ (∃ n, probeLayer (loadedImage page) n ≠ none) ∧
      (∀ n, probeLayer factoryImage n = none) ∧ State.reset.model.scanCompleted = false := by
  refine ⟨by decide +kernel, ⟨0, by decide +kernel⟩, by decide +kernel, rfl⟩

/-- R4, R5: after the load a configured slot is UNREAD and the first scan is to read it; any other slot is
UNUSED. -/
theorem test_first_scan :
    let s := State.reset.setStore { State.reset.store with
      page := .holds (withCheckWord (writtenImage factoryImage 0x011 [4])) }
    (result .startUpLoad s).map (fun t => (t.scanner.scan.map (·.toRead),
      (t.scanner.probes[(0 : ProbeId)]).state, (t.scanner.probes[(1 : ProbeId)]).state)) =
        some (some [0], .unread, .unused) := by decide +kernel

/-- R151: a line active at the load, at a port whose stored mask subscribes to it. -/
theorem test_line_active_at_load :
    let s := (setLine State.reset .x0 { lineOf State.reset .x0 with pin := .high }).setStore
      { State.reset.store with page := .holds (withCheckWord (listening ready).store.image) }
    (result .startUpLoad s).map (fun t => (lineActive t .x0, subscribed t 0 .inputX0,
      (pendingOf t 0).contains .inputX0, t.alerts.heldLost[0])) =
        some (true, true, true, false) := by decide +kernel

/-! ## States that meet the invariants, with a step from each -/

/-- The ready part with one command waiting. -/
def waiting : State := ready.setPending [.ident 0]

theorem test_waiting_steps : ∃ t, step waiting = .next t := ⟨_, rfl⟩

/-- S0 RUNNING, with one command waiting. -/
def heatingOn : State := heating.setPending [.ident 0]

theorem test_hypotheses_StepsProtectSources :
    SourcesProtected heatingOn ∧ (grantOf heatingOn 0).state = .running ∧
      ∃ t, step heatingOn = .next t := by
  refine ⟨fun k running => ?_, by decide +kernel, ⟨_, rfl⟩⟩
  have first : k = 0 := by
    revert k
    decide +kernel
  subst first
  exact ⟨rfl, rfl, by decide +kernel, rfl, ⟨0, rfl, rfl⟩, fun paid => absurd paid (by decide +kernel)⟩

/-- S0 RUNNING under the request of frame 2, which stands in no list, with one command waiting. -/
def heatingListed : State := setFreeList heatingOn 0 ((freeList heatingOn 0).erase 2)

theorem test_hypotheses_StepsKeepGrantRecords :
    RanksPermuted heatingListed ∧ GrantsFormed heatingListed := by
  unfold RanksPermuted GrantsFormed
  decide +kernel

theorem test_heatingListed_lists : FramesListed heatingListed := by
  refine ⟨?_, ?_, ?_⟩
  · have shares : heatingListed.pool.shares = copiedShares heatingListed.store.image := by
      decide +kernel
    exact shares
  · unfold listsFrames
    decide +kernel
  · decide +kernel

theorem test_heatingListed_requests : RequestsMatchSlots heatingListed := by
  have only : ∀ i k, heldSlot heatingListed i = some k → i = 2 ∧ k = 0 := by decide +kernel
  refine ⟨fun i j k hi hj => (only i k hi).1.trans (only j k hj).1.symm, ?_, ?_⟩
  · intro i k h
    obtain ⟨rfl, rfl⟩ := only i k h
    exact ⟨⟨0, by decide +kernel, by decide +kernel⟩, by decide +kernel, by decide +kernel⟩
  · intro k h
    have first : k = 0 := by
      revert k
      decide +kernel
    subst first
    exact ⟨2, by decide +kernel⟩

/-- A late plan in flight, with one command waiting. -/
def planningOn : State :=
  (planning (.planningLate { planForS0 with revocations := [] })).setPending [.latePlanCompletion]

theorem test_hypotheses_StepsKeepPlannerInOrder : PlannerInOrder planningOn := by
  refine ⟨by decide +kernel, by decide +kernel, fun plan h => ?_, rfl, by decide +kernel⟩
  obtain rfl := PlannerState.planningLate.inj h
  rfl

theorem test_hypotheses_StepsKeepFramesListed : FramesListed waiting := by
  refine ⟨?_, ?_, ?_⟩
  · have shares : waiting.pool.shares = copiedShares waiting.store.image := by decide +kernel
    exact shares
  · unfold listsFrames
    decide +kernel
  · decide +kernel

theorem test_no_factory_subscription : ∀ p, subscriptionMask factoryImage p = 0 := by decide +kernel

theorem test_hypotheses_StepsKeepLevelKinds : LevelKindsFollow waiting := by
  intro p k _ _
  have unsubscribed : subscribed waiting p k = false := by
    show maskHas factoryImage p k = false
    simp [maskHas, test_no_factory_subscription p]
  have empty : ∀ q, pendingOf waiting q = [] := by decide +kernel
  simp [unsubscribed, empty p]

theorem test_hypotheses_StepsKeepLevelKinds_formed : AlertSetsFormed waiting := by
  have empty : ∀ q, pendingOf waiting q = [] ∧ awaitingOf waiting q = [] := by decide +kernel
  have modes : ∀ k, levelCapable k = false → modeOf waiting k = .edge := by
    intro k
    cases k <;> decide +kernel
  intro p k
  simp only [empty p, List.not_mem_nil, false_and, not_false_eq_true, implies_true, true_and]
  exact ⟨fun h => h.elim, modes k⟩

/-- R142: INPUT-X0 in EDGE mode, false before the settle of X0 runs out and true after it. -/
theorem test_hypotheses_StepsKeepLevelKinds_edge :
    let s := listening (settling.setAlerts { settling.alerts with
      modes := Vector.replicate 16 .edge })
    modeOf s .inputX0 = .edge ∧ condition s .inputX0 = false ∧ subscribed s 0 .inputX0 = true ∧
      (result (.settleExpiry .x0) s).map (fun t => (modeOf t .inputX0, condition t .inputX0,
        subscribed t 0 .inputX0, (pendingOf t 0).contains .inputX0)) =
          some (.edge, true, true, true) := by decide +kernel

theorem test_hypotheses_StepsKeepImagesInRange : ImagesInRange waiting :=
  ⟨test_factory_in_range, fun _ h => nomatch h⟩

end Sys2Proof.Tests
end

section
/-! SUPPORT. The scan's last read (R1, R7 to R9): what the command that ends it does to the scanner, what
a completion leaves in the probe table, and that the period start it may cause does not reach the
table. -/

namespace Sys2Proof.Machine

/-! ## The read that ends -/

/-- R1: the sum of bytes is judged modulo 256. -/
theorem checkCorrect_iff (address low high check : Byte) : checkCorrect address low high check = true ↔
    (address.toNat + low.toNat + high.toNat + check.toNat) % 256 = 255 := by
  simp [checkCorrect, ← BitVec.toNat_inj, BitVec.toNat_add]

/-- R1: the model's judgement of three answer bytes is the one the statements name. -/
theorem keptResult_judgeRead (address low high check : Byte) :
    keptResult (judgeRead address low high check) = keptReading address low high check := by
  have sum := checkCorrect_iff address low high check
  unfold judgeRead keptReading wordOf
  by_cases correct : checkCorrect address low high check = true
  · by_cases range : -640 ≤ (high ++ low).toInt ∧ (high ++ low).toInt ≤ 2400
    · simp [correct, sum.mp correct, range, keptResult]
    · simp [correct, range, keptResult]
  · simp [correct, mt sum.mpr correct, keptResult]

theorem currentRead_of_toRead {s : State} {scan : Scan} {n : ProbeId} {rest : List ProbeId}
    (inFlight : s.scanner.scan = some scan) (reads : scan.toRead = n :: rest) :
    currentRead s = some (n, scan) := by
  simp [currentRead, inFlight, reads]

theorem exec_probeRead (low high check : Byte) (s : State) :
    exec (.probeRead low high check) s = execProbeRead low high check s := rfl

theorem exec_answerWindowClose (s : State) :
    exec .answerWindowClose s = execAnswerWindowClose s := rfl

/-- R1, R6: a command that ends the read in progress hands its result to the scan. -/
theorem exec_endsRead {s : State} {scan : Scan} {n : ProbeId} {rest : List ProbeId} {c : Instr}
    {r : ReadResult} (inFlight : s.scanner.scan = some scan) (reads : scan.toRead = n :: rest)
    (ends : endsRead s n c r) : exec c s = .next (readEnded s scan r) := by
  have current := currentRead_of_toRead inFlight reads
  obtain ⟨low, high, check, rfl, rfl⟩ | ⟨rfl, rfl⟩ := ends
  · rw [exec_probeRead, ← keptResult_judgeRead]
    simp [execProbeRead, current]
  · rw [exec_answerWindowClose]
    simp [execAnswerWindowClose, current, keptResult]

/-- R6, R7: the end of the last read completes the scan. -/
theorem readEnded_last {s : State} {scan : Scan} {n : ProbeId} (r : ReadResult)
    (reads : scan.toRead = [n]) : readEnded s scan r =
      scanCompleted { scan with toRead := [], results := scan.results ++ [(n, r)] } s := by
  simp [readEnded, keepResult, reads]

/-! ## One slot -/

/-- R8: a good reading makes any configured slot OK. -/
theorem updatedProbe_good (limit : Nat) (slot : ProbeSlot) (t : Int) (used : slot.state ≠ .unused) :
    updatedProbe limit slot (.good t) =
      { slot with state := .ok, holdCount := 0, lastValid := t } := by
  unfold updatedProbe
  cases h : slot.state with
  | unused => exact absurd h used
  | unread | ok | holding | failed => rfl

/-- R8: a fault makes an UNREAD slot FAILED. -/
theorem updatedProbe_fault_unread (limit : Nat) (slot : ProbeSlot) (h : slot.state = .unread) :
    updatedProbe limit slot .fault = { slot with state := .failed, holdCount := 0 } := by
  simp [updatedProbe, h]

/-- R8, R9: a fault counts at an OK or HOLDING slot, which fails above the hold limit. -/
theorem updatedProbe_fault_valid (limit : Nat) (slot : ProbeSlot)
    (h : slot.state = .ok ∨ slot.state = .holding) :
    updatedProbe limit slot .fault =
      { slot with state := if limit < slot.holdCount + 1 then .failed else .holding
                  holdCount := slot.holdCount + 1 } := by
  obtain h | h := h <;> simp [updatedProbe, h]

/-- R8: a fault leaves a FAILED slot as it is. -/
theorem updatedProbe_fault_failed (limit : Nat) (slot : ProbeSlot) (h : slot.state = .failed) :
    updatedProbe limit slot .fault = slot := by
  simp [updatedProbe, h]

/-! ## The probe table -/

/-- R8: a slot the scan did not read stands. -/
theorem updatedProbes_unread (scan : Scan) (probes : Vector ProbeSlot 8) (m : ProbeId)
    (h : (scan.results.find? fun x => x.1 == m) = none) :
    (updatedProbes scan probes)[m] = probes[m] := by
  simp [updatedProbes, h]

/-- R8: a slot the scan read is updated by the result of its read. -/
theorem updatedProbes_read (scan : Scan) (probes : Vector ProbeSlot 8) (m : ProbeId) (r : ReadResult)
    (h : (scan.results.find? fun x => x.1 == m) = some (m, r)) :
    (updatedProbes scan probes)[m] = updatedProbe scan.holdLimit probes[m] r := by
  simp [updatedProbes, h]

/-- R8: a scan that read nothing leaves the whole table. -/
theorem updatedProbes_nothing (scan : Scan) (probes : Vector ProbeSlot 8) (h : scan.results = []) :
    updatedProbes scan probes = probes := by
  simp [updatedProbes, h, each_keeping]

/-! ## The completion -/

/-- R7: a completion updates the table and ends the scan; its neighbours do not reach the scanner. -/
theorem scanApplied_scanner (scan : Scan) (s : State) : (scanApplied scan s).scanner =
    { s.scanner with probes := updatedProbes scan s.scanner.probes, scan := none } := by
  obtain ⟨alerts, eq⟩ := scanApplied_eq scan s
  obtain ⟨overtemp, moved⟩ := neighboursTake_eq scan (applyScan scan s)
  rw [eq, State.nextDraw_scanner, State.setAlerts_scanner, moved.scanner_eq]
  rfl

theorem periodStartTaken_scanner (first : Bool) (s : State) :
    (periodStartTaken first s).scanner = s.scanner :=
  (periodStartTaken_periodKept first s).2.1

theorem firstPeriodStart_scanner (before s : State) :
    (firstPeriodStart before s).scanner = s.scanner := by
  unfold firstPeriodStart
  split
  · rfl
  · exact periodStartTaken_scanner true s

theorem periodStartOfR90_scanner (s : State) : (periodStartOfR90 s).scanner = s.scanner := by
  unfold periodStartOfR90
  split
  · exact periodStartTaken_scanner false s
  · rfl

theorem setupLeft_scanner (s : State) : (setupLeft s).scanner = (beginScan s).scanner := rfl

/-- R90: the scan that starts as setup ends has read nothing, so its completion, where it comes at once,
leaves the table. -/
theorem endSetup_probes (s : State) : (endSetup s).scanner.probes = s.scanner.probes := by
  have left : (setupLeft s).scanner.probes = s.scanner.probes := rfl
  have fresh (scan : Scan) (h : emptyScan (setupLeft s) = some scan) : scan.results = [] := by
    simp only [emptyScan, setupLeft_scanner, beginScan, State.setScanner_scanner] at h
    split at h
    · rw [← Option.some.inj h]
    · cases h
  unfold endSetup
  dsimp only
  split
  · rw [periodStartOfR90_scanner, left]
  next scan empty =>
    split
    · rw [periodStartOfR90_scanner, scanApplied_scanner]
      exact (updatedProbes_nothing scan _ (fresh scan empty)).trans left
    · rw [firstPeriodStart_scanner, scanApplied_scanner, periodStartOfR90_scanner]
      exact (updatedProbes_nothing scan _ (fresh scan empty)).trans left

/-- R175: the restored image is copied by no block, so the table stands. -/
theorem endSetupRestoring_probes (s : State) :
    (endSetupRestoring s).scanner.probes = s.scanner.probes := by
  unfold endSetupRestoring
  split
  · rfl
  · rw [endSetup_probes, settleMasks_eq]
    rfl

/-- R88, R160, R175: no period start reaches the probe table, nor does the loss of the setup holder
at one. -/
theorem periodStart_probes (first : Bool) (s : State) :
    (periodStart first s).scanner.probes = s.scanner.probes := by
  have taken : (periodStartTaken first s).scanner.probes = s.scanner.probes := by
    rw [periodStartTaken_scanner]
  unfold periodStart
  dsimp only
  split
  · exact (endSetupRestoring_probes _).trans taken
  · exact taken

/-- R7, R8, R89: after a completion, the first since the reset as well, the table is the updated one. -/
theorem scanCompleted_probes (scan : Scan) (s : State) :
    (scanCompleted scan s).scanner.probes = updatedProbes scan s.scanner.probes := by
  have applied : (scanApplied scan s).scanner.probes = updatedProbes scan s.scanner.probes := by
    rw [scanApplied_scanner]
  unfold scanCompleted
  dsimp only
  split
  · exact applied
  · exact (periodStart_probes true _).trans applied

/-- Settles O22: the last read completes the scan, no part of the completion but the update of R8 reaches
the table, and each slot is updated by the result the scan kept for it. -/
theorem completionUpdatesProbeSlots : Obligations.CompletionUpdatesProbeSlots := by
  unfold Obligations.CompletionUpdatesProbeSlots
  intro s scan n c r inFlight reads ends
  refine ⟨_, exec_endsRead inFlight (rest := []) reads ends, fun m => ?_⟩
  dsimp only
  rw [readEnded_last r reads, scanCompleted_probes]
  refine ⟨fun unread => ?_, fun v read used => ?_, fun read => ?_⟩
  · exact updatedProbes_unread _ _ m unread
  · rw [updatedProbes_read _ _ m _ read, updatedProbe_good _ _ v used]
  · rw [updatedProbes_read _ _ m _ read]
    exact ⟨updatedProbe_fault_unread _ _, updatedProbe_fault_valid _ _,
      updatedProbe_fault_failed _ _⟩

end Sys2Proof.Machine
end

section
/-! SUPPORT. The reservation line and the power need (R33, R35): each figure is characterised once, by
what it is the least of, and the statements are read off. -/

namespace Sys2Proof.Machine

theorem saturate_eq_min (n : Nat) : saturate n = min 65535 n := Nat.min_comm n 65535

/-! ## The reservation line -/

/-- R31: the room of a layer in the bytes of the image. -/
theorem room_eq (img : Image) (layers : Vector Int 12) (i : LayerId) : room img layers i =
    (imageByte img i.val).toNat * (tMax img - layers[i]).toNat * 1163 / 16000 := by
  simp [room, energyShort, layerVolumes, imageU8]

/-- R33: the running saturating sum in the bytes of the image. -/
theorem roomBelow_eq (img : Image) (layers : Vector Int 12) (line : Nat) :
    roomBelow img layers line = min 65535 (((List.finRange 12).filter fun i =>
      i.val < line).map fun i =>
        (imageByte img i.val).toNat * (tMax img - layers[i]).toNat * 1163 / 16000).sum := by
  rw [roomBelow, saturatingSum, saturate_eq_min, funext (room_eq img layers)]
  rfl

/-- R33: the line is found below 12 with room enough, or it is 12; either way every line below it falls
short. -/
theorem reservationLine_cases (img : Image) (layers : Vector Int 12) (reservation : Nat) :
    (reservationLine img layers reservation < 12 ∧
      reservation ≤ roomBelow img layers (reservationLine img layers reservation) ∨
        reservationLine img layers reservation = 12) ∧
      ∀ line, line < reservationLine img layers reservation →
        roomBelow img layers line < reservation := by
  unfold reservationLine
  cases found : (List.range 12).find? fun line => reservation ≤ roomBelow img layers line with
  | none => simpa [List.find?_range_eq_none] using found
  | some line =>
    obtain ⟨enough, inRange, short⟩ := List.find?_range_eq_some.mp found
    exact ⟨.inl ⟨List.mem_range.mp inRange, by simpa using enough⟩, by simpa using short⟩

/-- R33: with nothing reserved the first line, which has no layer below it, has room enough. -/
theorem reservationLine_zero (img : Image) (layers : Vector Int 12) :
    reservationLine img layers 0 = 0 := by
  have short := (reservationLine_cases img layers 0).2 0
  omega

/-- Settles O27, by the two outcomes of the search over the lines in ascending order. -/
theorem reservationLineIsSmallest : Obligations.ReservationLineIsSmallest := by
  unfold Obligations.ReservationLineIsSmallest
  intro img layers reservation
  simp only [← roomBelow_eq]
  obtain ⟨outcome, short⟩ := reservationLine_cases img layers reservation
  refine ⟨by omega, short, by omega, ?_⟩
  rintro rfl
  exact reservationLine_zero img layers

/-! ## The power need -/

/-- R35: the quotient is the least power that covers D′ × 3600. -/
theorem ceiling_le_iff {deficit recovery : Nat} (power : Nat) (positive : 0 < recovery) :
    (deficit * 3600 + recovery - 1) / recovery ≤ power ↔ deficit * 3600 ≤ power * recovery := by
  rw [Nat.div_le_iff_le_mul positive]
  omega

/-- R35: the power need is the held ceiling, so it is the least power that covers D′ × 3600 or stands at
the top of its range. -/
theorem powerNeed_le_iff {deficit recovery : Nat} (power : Nat) (positive : 0 < recovery) :
    powerNeed deficit recovery ≤ power ↔
      65535 ≤ power ∨ deficit * 3600 ≤ power * recovery := by
  rw [powerNeed, saturate_eq_min, ← ceiling_le_iff power positive]
  omega

/-- R35: the power need covers D′ × 3600 below the top of its range. -/
theorem powerNeed_covers (deficit : Nat) {recovery : Nat} (positive : 0 < recovery) :
    65535 ≤ powerNeed deficit recovery ∨
      deficit * 3600 ≤ powerNeed deficit recovery * recovery :=
  (powerNeed_le_iff _ positive).mp (Nat.le_refl _)

theorem powerNeed_eq_zero_iff {deficit recovery : Nat} (positive : 0 < recovery) :
    powerNeed deficit recovery = 0 ↔ deficit = 0 := by
  rw [← Nat.le_zero, powerNeed_le_iff 0 positive]
  omega

/-- R35: a recovery time of an hour or longer needs no more watts than the deficit has watt-hours. -/
theorem powerNeed_le_deficit (deficit : Nat) {recovery : Nat} (hour : 3600 ≤ recovery) :
    powerNeed deficit recovery ≤ deficit :=
  (powerNeed_le_iff deficit (by omega)).mpr (.inr (Nat.mul_le_mul_left deficit hour))

/-- R35: over a recovery time of an hour the need is the deficit. -/
theorem powerNeed_hour {deficit : Nat} (range : deficit ≤ 65535) :
    powerNeed deficit 3600 = deficit := by
  have covers := powerNeed_covers deficit (recovery := 3600) (by decide)
  have atMost := powerNeed_le_deficit deficit (recovery := 3600) (Nat.le_refl _)
  omega

/-- R35: one watt less than a need above 0 leaves part of D′ × 3600 uncovered. -/
theorem powerNeed_pred_short {deficit recovery : Nat} (positive : 0 < recovery)
    (needed : 0 < deficit) :
    (powerNeed deficit recovery - 1) * recovery < deficit * 3600 := by
  have nonzero := mt (powerNeed_eq_zero_iff positive).mp (Nat.ne_of_gt needed)
  have short : ¬ powerNeed deficit recovery ≤ powerNeed deficit recovery - 1 := by omega
  rw [powerNeed_le_iff _ positive, not_or, Nat.not_le, Nat.not_le] at short
  exact short.2

/-- Settles O28: every clause follows from the need being the least power that covers the deficit, or the
top of its range. -/
theorem powerNeedIsCeiling : Obligations.PowerNeedIsCeiling := by
  unfold Obligations.PowerNeedIsCeiling
  intro deficit recovery range minute
  have positive : 0 < recovery := by omega
  refine ⟨saturate_eq_min _, powerNeed_eq_zero_iff positive, ?_, powerNeed_le_deficit deficit,
    fun below => ⟨?_, powerNeed_pred_short positive⟩⟩
  · rintro rfl
    exact powerNeed_hour range
  · exact (powerNeed_covers deficit positive).resolve_left (by omega)

end Sys2Proof.Machine
end

section
/-! SUPPORT. TAKE (R67): what it answers from an empty free list and from one with a head, and what a
served command that changes the Request Pool leaves. -/

namespace Sys2Proof.Machine

/-- A served command that acts on the Request Pool alone changes that pool and the ports. -/
theorem answered_heard_setPool (p : PortId) (r : Response) (s : State) (x : RequestPool) :
    answered p (r, (heard p s).setPool x) = (s.setPorts (replied s p r)).setPool x := by
  rw [← answered_heard]
  rfl

theorem exec_take (p : PortId) (s : State) : exec (.take p) s = execTake p s := rfl

/-- R67: TAKE from an empty free list answers NONE and acts on no block. -/
theorem takeAnswer_of_empty {p : PortId} {s : State} (empty : freeList s p = []) :
    takeAnswer p s = (⟨.noItem, [0xFF]⟩, s) := by
  simp [takeAnswer, empty, noItem]

/-- R67: TAKE answers the head of the free list, which it drops from the list, clears and makes TAKEN. -/
theorem takeAnswer_of_head {p : PortId} {s : State} {i : FrameId} {rest : List FrameId}
    (head : freeList s p = i :: rest) :
    takeAnswer p s = (⟨.ok, [byteOf i.val]⟩, s.setPool
      { s.pool with freeLists := s.pool.freeLists.set p rest
                    frames := s.pool.frames.set i (clearedFrame .taken) }) := by
  simp [takeAnswer, head, accepted, frameByte, modFrame, modifyAt, setFreeList, State.setPool]

/-- R67, R182: a cleared frame reads 0 in all 20 bytes, whatever its state. -/
theorem frameBytes_clearedFrame (state : FrameState) :
    frameBytes (clearedFrame state) = List.replicate 20 0 := by
  simp [frameBytes, requestBytes, resultBytes, clearedFrame, wordBytes, numberBytes, outcomeCode,
    causeCode]

/-- Settles O10, by whether the free list is empty; hearing the port leaves the list as it was. -/
theorem takeAnswers : Obligations.TakeAnswers := by
  unfold Obligations.TakeAnswers
  refine ⟨frameBytes_clearedFrame .taken, fun p s decoding => ?_⟩
  rw [exec_take, execTake, serve_decodes p _ s decoding]
  constructor
  · intro empty
    have heardEmpty : freeList (heard p s) p = [] := empty
    rw [takeAnswer_of_empty heardEmpty, answered_heard]
  · intro i rest head
    have heardHead : freeList (heard p s) p = i :: rest := head
    rw [takeAnswer_of_head heardHead, answered_heard_setPool, heard_pool]

end Sys2Proof.Machine
end

section
/-! SUPPORT. SET-WRITE's permission (R168, R169): what a served command leaves in the ports, which refusal
the fields a write reaches give, and what the command then answers. -/

namespace Sys2Proof.Machine

/-! ## A served command's ports -/

/-- A served command that acts on no port: the reply is all its port shows. -/
theorem answered_of_ports (p : PortId) (r : Response) (s t : State)
    (kept : t.ports = (heard p s).ports) :
    answered p (r, t) = t.setPorts (replied s p r) := by
  rw [answered_eq]
  simp [answered, modPort, kept, heard, modifyAt, replied, repliedPort, portOf]

/-- R167: a served command that moves its port's selector and acts on no port otherwise. -/
theorem answered_setSelector (p : PortId) (r : Response) (n : Nat) (s t : State)
    (kept : t.ports = (heard p s).ports) :
    answered p (r, setSelector p n t) = t.setPorts (repliedAt s p n r) := by
  rw [answered_eq]
  simp [answered, setSelector, modPort, kept, heard, modifyAt, repliedAt, repliedPort, portOf,
    State.setPorts]

@[simp] theorem selector_heard (p : PortId) (s : State) :
    (portOf (heard p s) p).selector = (portOf s p).selector := by
  simp [portOf, heard, modPort]

/-! ## The permission of a write (R169) -/

/-- R168: a write fits exactly with data and within the image. -/
theorem selectorFits_iff (selector count : Nat) :
    selectorFits selector count = true ↔ count ≠ 0 ∧ selector + count ≤ 256 := by
  simp [selectorFits]

/-- R168: when a write reaches a field. -/
theorem fieldReached_iff (start count : Nat) (f : Field) : fieldReached start count f = true ↔
    f.offset < start + count ∧ start < f.offset + fieldWidth f := by
  simp [fieldReached]

theorem mem_reachedFields (start count : Nat) (f : Field) : f ∈ reachedFields start count ↔
    f ∈ fieldTable ∧ f.offset < start + count ∧ start < f.offset + fieldWidth f := by
  simp [reachedFields, fieldReached_iff]

/-- R169: a permitted write gets no refusal. -/
theorem fieldRefusal_of_ok {s : State} {p : PortId} {access : FieldAccess}
    (ok : writeStatus s p access = .ok) : fieldRefusal s p access = none := by
  cases access with
  | maskOf q =>
    simp only [writeStatus] at ok
    split at ok
    · simp [fieldRefusal, *]
    · cases ok
  | liveOf k =>
    simp only [writeStatus] at ok
    split at ok
    · rename_i permitted
      obtain owner | holder := permitted <;> simp [fieldRefusal, *]
    · split at ok <;> cases ok
  | setupOnly =>
    simp only [writeStatus] at ok
    split at ok
    · simp [fieldRefusal, *]
    · split at ok <;> cases ok

/-- R169: a write that is not permitted is refused with its status. -/
theorem fieldRefusal_of_not_ok {s : State} {p : PortId} {access : FieldAccess}
    (barred : writeStatus s p access ≠ .ok) :
    fieldRefusal s p access = some (writeStatus s p access) := by
  cases access with
  | maskOf q =>
    by_cases mine : q = p
    · exact absurd (by simp [writeStatus, mine]) barred
    · simp [fieldRefusal, writeStatus, mine]
  | liveOf k =>
    by_cases owner : (recordOf s k).owner = some p
    · exact absurd (by simp [writeStatus, owner]) barred
    by_cases holder : setupHolder s = some p
    · exact absurd (by simp [writeStatus, holder]) barred
    cases setup : inSetup s <;> simp [fieldRefusal, writeStatus, owner, holder, setup]
  | setupOnly =>
    by_cases holder : setupHolder s = some p
    · exact absurd (by simp [writeStatus, holder]) barred
    cases setup : inSetup s <;> simp [fieldRefusal, writeStatus, holder, setup]

/-- R169: a write whose every field is permitted gets no refusal. -/
theorem writeRefusal_of_permitted {s : State} {p : PortId} {start count : Nat}
    (permitted : ∀ f, f ∈ reachedFields start count → writeStatus s p f.access = .ok) :
    writeRefusal s p start count = none :=
  List.findSome?_eq_none_iff.mpr fun f reached => fieldRefusal_of_ok (permitted f reached)

/-- R169: the first field that is not permitted gives the refusal. -/
theorem writeRefusal_of_first {s : State} {p : PortId} {start count : Nat}
    {permitted after : List Field} {f : Field}
    (reached : reachedFields start count = permitted ++ f :: after)
    (before : ∀ g, g ∈ permitted → writeStatus s p g.access = .ok)
    (barred : writeStatus s p f.access ≠ .ok) :
    writeRefusal s p start count = some (writeStatus s p f.access) := by
  have passed : permitted.findSome? (fun g => fieldRefusal s p g.access) = none :=
    List.findSome?_eq_none_iff.mpr fun g hg => fieldRefusal_of_ok (before g hg)
  simp [writeRefusal, reached, List.findSome?_append, passed, fieldRefusal_of_not_ok barred]

/-! ## What a write stores (R168) -/

/-- R168, R146: the write stored and the masks it changes settled, before any grant ends. -/
def storeWritten (start : Nat) (data : List Byte) (s : State) : State :=
  settleMasks s.store.image
    (s.setStore { s.store with image := writtenImage s.store.image start data })

/-- R42, R168, R170: a write is stored, and then ends the grants it blocks. -/
theorem imageWritten_eq (start : Nat) (data : List Byte) (s : State) :
    imageWritten start data s = endGrants .paidBlock (storeWritten start data s)
      (blockedByWrite (storeWritten start data s) start data.length) := rfl

/-- R168: the storing of a write reaches the image and the alerts alone. -/
theorem storeWritten_eq (start : Nat) (data : List Byte) (s : State) : ∃ x alerts,
    storeWritten start data s = (s.setStore x).setAlerts alerts ∧
      x = { s.store with image := writtenImage s.store.image start data } :=
  ⟨_, _, settleMasks_eq _ _, rfl⟩

theorem storeWritten_ports (start : Nat) (data : List Byte) (s : State) :
    (storeWritten start data s).ports = s.ports := by
  obtain ⟨x, alerts, stored, -⟩ := storeWritten_eq start data s
  rw [stored]
  rfl

/-- R42, R168: after the storing, a write moves the sources alone. -/
theorem imageWritten_moved (start : Nat) (data : List Byte) (s : State) :
    SourcesMoved (storeWritten start data s) (imageWritten start data s) :=
  endGrants_moved .paidBlock _ _

theorem imageWritten_ports (start : Nat) (data : List Byte) (s : State) :
    (imageWritten start data s).ports = s.ports :=
  (imageWritten_moved start data s).ports_eq.trans (storeWritten_ports start data s)

/-! ## What SET-WRITE answers -/

theorem exec_setWrite {p : PortId} {data : List Byte} {s : State} (decoding : decodes s p = true) :
    exec (.setWrite p data) s = .next (answered p (setWriteAnswer p data (heard p s))) :=
  serve_decodes p _ s decoding

theorem writeRefusal_heard (p : PortId) (s : State) (start count : Nat) :
    writeRefusal (heard p s) p start count = writeRefusal s p start count := rfl

/-- R168: without data or beyond the image the write is refused. -/
theorem exec_setWrite_unfit {p : PortId} {data : List Byte} {s : State} (decoding : decodes s p = true)
    (unfit : selectorFits (portOf s p).selector data.length = false) :
    exec (.setWrite p data) s = .next (refusedWith s p .badArgument) := by
  rw [exec_setWrite decoding]
  simp [setWriteAnswer, unfit, answered_refused]

/-- R169: a write that gets a refusal. -/
theorem exec_setWrite_refused {p : PortId} {data : List Byte} {s : State} {status : Status}
    (decoding : decodes s p = true)
    (fits : selectorFits (portOf s p).selector data.length = true)
    (refusal : writeRefusal s p (portOf s p).selector data.length = some status) :
    exec (.setWrite p data) s = .next (refusedWith s p status) := by
  rw [exec_setWrite decoding]
  simp [setWriteAnswer, fits, writeRefusal_heard, refusal, answered_refused]

/-- R168: an accepted write answers OK, raises the selector and is stored. -/
theorem exec_setWrite_accepted {p : PortId} {data : List Byte} {s : State}
    (decoding : decodes s p = true)
    (fits : selectorFits (portOf s p).selector data.length = true)
    (permitted : writeRefusal s p (portOf s p).selector data.length = none) :
    exec (.setWrite p data) s =
      .next ((imageWritten (portOf s p).selector data (heard p s)).setPorts
        (repliedAt s p ((portOf s p).selector + data.length) ⟨.ok, []⟩)) := by
  rw [exec_setWrite decoding]
  simp [setWriteAnswer, fits, writeRefusal_heard, permitted, accepted,
    answered_setSelector p _ _ s _ (imageWritten_ports _ data (heard p s))]

theorem selectorFits_of_within {selector : Nat} {data : List Byte} (hasData : data ≠ [])
    (within : selector + data.length ≤ 256) : selectorFits selector data.length = true :=
  (selectorFits_iff _ _).mpr ⟨by simpa using hasData, within⟩

/-- Settles O44: the first refusal found among the reached fields is the status of the first field that
is not permitted. -/
theorem setWritePermission : Obligations.SetWritePermission := by
  unfold Obligations.SetWritePermission
  intro p data s decoding hasData within reached
  have fits := selectorFits_of_within hasData within
  refine ⟨fun permitted after f split before barred => ?_, fun permitted => ?_⟩
  · exact exec_setWrite_refused decoding fits (writeRefusal_of_first split before barred)
  · refine ⟨_, exec_setWrite_accepted decoding fits (writeRefusal_of_permitted permitted), ?_⟩
    simp [portOf, repliedAt, repliedPort]

end Sys2Proof.Machine
end

section
/-! SUPPORT. A change of the masks (R142, R146): what settling them leaves pending and held at one port. -/

namespace Sys2Proof.Machine

/-! ## A mask settled at one port -/

theorem condition_setAlerts (s : State) (x : AlertRouter) (k : AlertKind) :
    condition (s.setAlerts x) k = condition s k := rfl

/-- R146: a mask settled at one port releases nothing held for the others. -/
theorem heldLost_settleMask_other (old : Image) (s : State) (p q : PortId) (h : p ≠ q) :
    (settleMask old s p).alerts.heldLost[q] = s.alerts.heldLost[q] := by
  simpa [settleMask] using getElem_modifyAt_other _ p q _ h

/-- R142, R146: a held SETTINGS-LOST is released where its bit was set. -/
theorem heldLost_settleMask_self (old : Image) (s : State) (p : PortId) :
    (settleMask old s p).alerts.heldLost[p] = (s.alerts.heldLost[p] &&
      !(!maskHas old p .settingsLost && subscribed s p .settingsLost)) := by
  simp [settleMask]

/-- R142, R146: an EDGE kind whose bit was set is pending as it was, but for a held SETTINGS-LOST. -/
theorem mem_pendingOf_settleMask_edge (old : Image) (s : State) (p : PortId) (k : AlertKind)
    (h : maskHas old p k = false) (hs : subscribed s p k = true) (hm : modeOf s k = .edge) :
    k ∈ pendingOf (settleMask old s p) p ↔
      k ∈ pendingOf s p ∨ (k = .settingsLost ∧ s.alerts.heldLost[p] = true) := by
  simp [pendingOf, settleMask, h, hs, hm]

/-! ## All masks settled -/

/-- From `s` to `t` the alerts alone have changed, and those of the port are as they were. -/
def alertsKeptAt (q : PortId) (s t : State) : Prop :=
  t = s.setAlerts t.alerts ∧ t.alerts.modes = s.alerts.modes ∧
    t.alerts.awaiting = s.alerts.awaiting ∧ pendingOf t q = pendingOf s q ∧
    t.alerts.heldLost[q] = s.alerts.heldLost[q]

theorem settleMask_keptAt (old : Image) (s : State) {p q : PortId} (h : p ≠ q) :
    alertsKeptAt q s (settleMask old s p) :=
  ⟨rfl, rfl, rfl, pendingOf_settleMask_other old s p q h, heldLost_settleMask_other old s p q h⟩

theorem settleMasks_foldl_keptAt (old : Image) (q : PortId) (ports : List PortId) (s : State)
    (h : q ∉ ports) : alertsKeptAt q s (ports.foldl (settleMask old) s) := by
  induction ports generalizing s with
  | nil => exact ⟨rfl, rfl, rfl, rfl, rfl⟩
  | cons p rest ih =>
    rw [List.mem_cons, not_or] at h
    obtain ⟨_, modes, awaiting, pend, held⟩ := ih (settleMask old s p) h.2
    obtain ⟨_, _, _, pendHere, heldHere⟩ := settleMask_keptAt old s (Ne.symm h.1)
    exact ⟨settleMasks_foldl_eq old _ s, modes, awaiting, pend.trans pendHere,
      held.trans heldHere⟩

/-- R146: what a mask settled at a port leaves there depends on the alerts of that port alone. -/
theorem alertsKeptAt.settleMask {q : PortId} {s t : State} (h : alertsKeptAt q s t) (old : Image) :
    pendingOf (settleMask old t q) q = pendingOf (settleMask old s q) q ∧
      (settleMask old t q).alerts.heldLost[q] = (settleMask old s q).alerts.heldLost[q] := by
  obtain ⟨eq, modes, awaiting, pend, held⟩ := h
  have mask (k : AlertKind) : subscribed t q k = subscribed s q k := by rw [eq]; rfl
  have stands (k : AlertKind) : condition t k = condition s k := by rw [eq, condition_setAlerts]
  have mode (k : AlertKind) : modeOf t k = modeOf s k := by simp only [modeOf, modes]
  have level (k : AlertKind) : levelPending t q k = levelPending s q k := by
    simp only [levelPending, mask, stands, awaitingOf, awaiting]
  refine ⟨?_, by rw [heldLost_settleMask_self, heldLost_settleMask_self, held, mask]⟩
  have pendHere : t.alerts.pendingKinds[q.val] = s.alerts.pendingKinds[q.val] := pend
  have heldHere : t.alerts.heldLost[q.val] = s.alerts.heldLost[q.val] := held
  simp only [pendingOf, Machine.settleMask, Fin.getElem_fin, State.setAlerts_alerts,
    getElem_modifyAt_self, mask, mode, level, pendHere, heldHere]

/-- R146: settling every mask leaves at a port what settling its own leaves. -/
theorem settleMasks_at (old : Image) (s : State) (q : PortId) :
    pendingOf (settleMasks old s) q = pendingOf (settleMask old s q) q ∧
      (settleMasks old s).alerts.heldLost[q] = (settleMask old s q).alerts.heldLost[q] := by
  obtain ⟨before, after, split⟩ := List.append_of_mem (mem_allPorts q)
  have distinct : (before ++ q :: after).Nodup := split ▸ List.nodup_finRange 4
  obtain ⟨-, hafter, hbefore⟩ := List.nodup_append.mp distinct
  have notBefore : q ∉ before := fun h => hbefore q h q (List.mem_cons_self ..) rfl
  have notAfter : q ∉ after := (List.nodup_cons.mp hafter).1
  have first := settleMasks_foldl_keptAt old q before s notBefore
  obtain ⟨_, _, _, pend, held⟩ :=
    settleMasks_foldl_keptAt old q after (settleMask old (before.foldl (settleMask old) s) q) notAfter
  rw [settleMasks, split, List.foldl_append, List.foldl_cons]
  exact ⟨pend.trans (first.settleMask old).1, held.trans (first.settleMask old).2⟩

end Sys2Proof.Machine
end

section
/-! SUPPORT. SET-WRITE's effects (R42, R140, R146, R168, R170): what an accepted write leaves in the image, in
the pending sets and in the grant records. -/

namespace Sys2Proof.Machine

/-! ## The ends of grants, as the statements say them -/

/-- R47: a RUNNING source among those whose grants end. -/
theorem endGrants_ends (cause : EndCause) {slots : List SlotId} {s : State} {k : SlotId}
    (mem : k ∈ slots) (running : (grantOf s k).state = .running) :
    grantOf (endGrants cause s slots) k =
        grantEnded (recordOf s k).minRest (heldFor s k).isSome (grantOf s k) ∧
      ∀ i, heldFor s k = some i → (frameOf (endGrants cause s slots) i).result =
        { (frameOf s i).result with endCause := cause } := by
  have ends : k ∈ slots ∧ isGrantRunning s k = true := ⟨mem, by simp [isGrantRunning, running]⟩
  refine ⟨?_, fun i held => ?_⟩
  · rw [grantOf_endGrants, if_pos ends, endedGrant_eq_grantEnded]
  · rw [result_endGrants cause slots s k i held, if_pos ends]

/-- R50: a source whose grant does not end keeps its record and its request's result. -/
theorem endGrants_stands (cause : EndCause) {slots : List SlotId} {s : State} {k : SlotId}
    (h : k ∉ slots) : grantOf (endGrants cause s slots) k = grantOf s k ∧
      ∀ i, heldFor s k = some i →
        (frameOf (endGrants cause s slots) i).result = (frameOf s i).result := by
  refine ⟨?_, fun i held => ?_⟩
  · rw [grantOf_endGrants, if_neg fun ends => h ends.1]
  · rw [result_endGrants cause slots s k i held, if_neg fun ends => h ends.1]

/-! ## The image -/

theorem storeWritten_store (start : Nat) (data : List Byte) (s : State) :
    (storeWritten start data s).store =
      { s.store with image := writtenImage s.store.image start data } := by
  obtain ⟨x, alerts, stored, written⟩ := storeWritten_eq start data s
  rw [stored, ← written]
  rfl

theorem imageWritten_store (start : Nat) (data : List Byte) (s : State) :
    (imageWritten start data s).store =
      { s.store with image := writtenImage s.store.image start data } :=
  (imageWritten_moved start data s).store_eq.trans (storeWritten_store start data s)

theorem imageWritten_image (start : Nat) (data : List Byte) (s : State) :
    (imageWritten start data s).store.image = writtenImage s.store.image start data := by
  rw [imageWritten_store]

/-! ## The other blocks -/

/-- R168: the blocks that hold copies stand. -/
theorem imageWritten_kept (start : Nat) (data : List Byte) (s : State) :
    let t := imageWritten start data s
    t.part = s.part ∧ t.scanner = s.scanner ∧ t.model = s.model ∧ t.planner = s.planner ∧
      t.safety = s.safety ∧ t.cycle = s.cycle ∧ t.table.records = s.table.records ∧
      t.wires = s.wires := by
  have moved := imageWritten_moved start data s
  obtain ⟨x, alerts, stored, -⟩ := storeWritten_eq start data s
  rw [stored] at moved
  exact ⟨moved.part_eq, moved.scanner_eq, moved.model_eq, moved.planner_eq, moved.safety_eq,
    moved.cycle_eq, moved.2.1, moved.wires_eq⟩

theorem storeWritten_poolKept (start : Nat) (data : List Byte) (s : State) :
    poolKept s (storeWritten start data s) := by
  obtain ⟨x, alerts, stored, -⟩ := storeWritten_eq start data s
  rw [stored]
  exact ⟨rfl, rfl, rfl, rfl, fun _ => ⟨rfl, rfl⟩⟩

/-- R168: lists, frame states and requests stand. -/
theorem imageWritten_poolKept (start : Nat) (data : List Byte) (s : State) :
    poolKept s (imageWritten start data s) :=
  (storeWritten_poolKept start data s).trans (endGrants_kept .paidBlock _ _)

/-! ## The masks -/

theorem imageWritten_alerts (start : Nat) (data : List Byte) (s : State) :
    (imageWritten start data s).alerts = (storeWritten start data s).alerts :=
  (imageWritten_moved start data s).alerts_eq

theorem imageWritten_modes (start : Nat) (data : List Byte) (s : State) :
    (imageWritten start data s).alerts.modes = s.alerts.modes := by
  rw [imageWritten_alerts, storeWritten, settleMasks_modes, State.setStore_alerts]

theorem imageWritten_awaiting (start : Nat) (data : List Byte) (s : State) :
    (imageWritten start data s).alerts.awaiting = s.alerts.awaiting := by
  rw [imageWritten_alerts, storeWritten, settleMasks_awaiting, State.setStore_alerts]

theorem subscribed_imageWritten (start : Nat) (data : List Byte) (s : State) (q : PortId)
    (j : AlertKind) : subscribed (imageWritten start data s) q j =
      subscribed (s.setStore { s.store with image := writtenImage s.store.image start data }) q j := by
  rw [subscribed, imageWritten_image, subscribed, State.setStore_store]

/-- R146: a write leaves at a port what settling that port's mask leaves. -/
theorem imageWritten_settled (start : Nat) (data : List Byte) (s : State) (q : PortId) :
    let settled := settleMask s.store.image
      (s.setStore { s.store with image := writtenImage s.store.image start data }) q
    pendingOf (imageWritten start data s) q = pendingOf settled q ∧
      (imageWritten start data s).alerts.heldLost[q] = settled.alerts.heldLost[q] := by
  rw [pendingOf, imageWritten_alerts]
  exact settleMasks_at s.store.image _ q

/-- R142, R146: a write releases the SETTINGS-LOST held for a port that it subscribes. -/
theorem heldLost_imageWritten (start : Nat) (data : List Byte) (s : State) (q : PortId) :
    (imageWritten start data s).alerts.heldLost[q] = (s.alerts.heldLost[q] &&
      !(!subscribed s q .settingsLost &&
        subscribed (imageWritten start data s) q .settingsLost)) := by
  rw [(imageWritten_settled start data s q).2, subscribed_imageWritten, heldLost_settleMask_self]
  rfl

/-- R146: from `s` to `t` a kind's place in a port's pending set has followed the kind's mask bit. -/
def followsMask (s t : State) (q : PortId) (j : AlertKind) : Prop :=
  (subscribed t q j = subscribed s q j → (j ∈ pendingOf t q ↔ j ∈ pendingOf s q)) ∧
  (subscribed s q j = true → subscribed t q j = false → j ∉ pendingOf t q) ∧
  (subscribed s q j = false → subscribed t q j = true →
    (modeOf s j = .level → (j ∈ pendingOf t q ↔ condition s j = true ∧ j ∉ awaitingOf s q)) ∧
    (modeOf s j = .edge → (j ∈ pendingOf t q ↔
      j ∈ pendingOf s q ∨ (j = .settingsLost ∧ s.alerts.heldLost[q] = true))))

/-- R146: settling a port's mask to a new image, by how the image moves the kind's bit. -/
theorem settleMask_followsMask (s : State) (x : SettingsStore) (q : PortId) (j : AlertKind) :
    followsMask s (settleMask s.store.image (s.setStore x) q) q j := by
  refine ⟨fun same => ?_, fun was cleared => ?_, fun was set => ⟨fun level => ?_, fun edge => ?_⟩⟩
  · exact mem_pendingOf_settleMask_same _ (s.setStore x) q j same.symm
  · exact not_mem_pendingOf_settleMask _ (s.setStore x) q j was cleared
  · have here : subscribed (s.setStore x) q j = true := set
    have pending : levelPending (s.setStore x) q j = true ↔
        condition s j = true ∧ j ∉ awaitingOf s q := by
      have stands : condition (s.setStore x) j = condition s j := rfl
      have awaits : awaitingOf (s.setStore x) q = awaitingOf s q := rfl
      simp [levelPending, here, stands, awaits]
    exact (mem_pendingOf_settleMask_level _ (s.setStore x) q j was set level).trans pending
  · exact mem_pendingOf_settleMask_edge _ (s.setStore x) q j was set edge

/-- R146: a write moves the pending kinds of a port as it moves its mask. -/
theorem imageWritten_followsMask (start : Nat) (data : List Byte) (s : State) (q : PortId)
    (j : AlertKind) : followsMask s (imageWritten start data s) q j := by
  unfold followsMask
  rw [(imageWritten_settled start data s q).1, subscribed_imageWritten]
  generalize ({ s.store with image := writtenImage s.store.image start data } : SettingsStore) = x
  exact settleMask_followsMask s x q j

/-! ## Block-obey -/

/-- R42, R170: a write blocks a RUNNING PAID source where it reaches its block-obey and leaves it at yes,
while X0 is active. -/
theorem mem_blockedByWrite (s : State) (start count : Nat) (k : SlotId) :
    k ∈ blockedByWrite s start count ↔ (grantOf s k).state = .running ∧
      (recordOf s k).sourceClass = .paid ∧ lineActive s .x0 = true ∧
      start ≤ recordOffset k + 9 ∧ recordOffset k + 9 < start + count ∧
      blockObey s.store.image k = true := by
  simp only [blockedByWrite, heldBackByX0, List.mem_filter, mem_runningSlots, isGrantRunning,
    Bool.and_eq_true, decide_eq_true_eq, beq_iff_eq]
  constructor
  · rintro ⟨running, ⟨below, above⟩, ⟨paid, obeys⟩, active⟩
    exact ⟨running, paid, active, below, above, obeys⟩
  · rintro ⟨running, paid, active, below, above, obeys⟩
    exact ⟨running, ⟨below, above⟩, ⟨paid, obeys⟩, active⟩

/-- R42, R47, R170: a write ends the grants it blocks, with cause PAID-BLOCK, and no other. -/
theorem grants_imageWritten (start : Nat) (data : List Byte) (s : State) (k : SlotId) :
    let t := imageWritten start data s
    let blocked : Prop := (grantOf s k).state = .running ∧
      (recordOf s k).sourceClass = .paid ∧ lineActive s .x0 = true ∧
      start ≤ recordOffset k + 9 ∧ recordOffset k + 9 < start + data.length ∧
      blockObey t.store.image k = true
    (blocked → grantOf t k =
        grantEnded (recordOf s k).minRest (heldFor s k).isSome (grantOf s k) ∧
      ∀ i, heldFor s k = some i →
        (frameOf t i).result = { (frameOf s i).result with endCause := .paidBlock }) ∧
    (¬blocked → grantOf t k = grantOf s k ∧
      ∀ i, heldFor s k = some i → (frameOf t i).result = (frameOf s i).result) := by
  have held : heldFor (storeWritten start data s) k = heldFor s k :=
    (storeWritten_poolKept start data s).heldFor_eq k
  have image : (storeWritten start data s).store.image =
      (imageWritten start data s).store.image := by
    rw [storeWritten_store, imageWritten_image]
  have member := mem_blockedByWrite (storeWritten start data s) start data.length k
  dsimp only
  rw [imageWritten_eq] at image ⊢
  rw [← image]
  obtain ⟨x, alerts, stored, -⟩ := storeWritten_eq start data s
  generalize storeWritten start data s = u at *
  have grant : grantOf u k = grantOf s k := by rw [stored]; rfl
  have record : recordOf u k = recordOf s k := by rw [stored]; rfl
  have frame (i : FrameId) : frameOf u i = frameOf s i := by rw [stored]; rfl
  have x0 : lineActive u .x0 = lineActive s .x0 := by rw [stored]; rfl
  rw [grant, record, x0] at member
  rw [← member]
  refine ⟨fun blocked => ?_, fun stands => ?_⟩
  · have running : (grantOf u k).state = .running := grant ▸ (member.mp blocked).1
    have ends := endGrants_ends .paidBlock blocked running
    rw [grant, record, held] at ends
    simpa only [frame] using ends
  · have kept := endGrants_stands .paidBlock (s := u) stands
    rw [grant, held] at kept
    simpa only [frame] using kept

/-! ## The statement -/

/-- Settles O43, from what a stored write leaves in each block; hearing the port changes none of them. -/
theorem setWriteStoresClampedFields : Obligations.SetWriteStoresClampedFields := by
  unfold Obligations.SetWriteStoresClampedFields
  intro p data s decoding start
  refine ⟨fun unfit => exec_setWrite_unfit decoding ?_, fun hasData within permitted => ?_⟩
  · rw [← Bool.not_eq_true, selectorFits_iff]
    rintro ⟨hasData, within⟩
    obtain rfl | beyond := unfit
    · exact hasData rfl
    · exact absurd within (Nat.not_le.mpr beyond)
  · have noRefusal : writeRefusal s p start data.length = none :=
      writeRefusal_of_permitted fun f reached =>
        have ⟨mem, below, above⟩ := (mem_reachedFields ..).mp reached
        permitted f mem below above
    have accepts := exec_setWrite_accepted decoding (selectorFits_of_within hasData within) noRefusal
    have store := imageWritten_store start data (heard p s)
    obtain ⟨part, scanner, model, planner, safety, cycle, records, wires⟩ :=
      imageWritten_kept start data (heard p s)
    have modes := imageWritten_modes start data (heard p s)
    have awaiting := imageWritten_awaiting start data (heard p s)
    have pend := imageWritten_followsMask start data (heard p s)
    have lost := heldLost_imageWritten start data (heard p s)
    have pool := imageWritten_poolKept start data (heard p s)
    have grants := grants_imageWritten start data (heard p s)
    generalize imageWritten start data (heard p s) = t at *
    refine ⟨_, accepts, rfl, ?_, ?_, ?_, part, scanner, model, planner, safety, cycle, records,
      modes, awaiting, wires, pend, lost, pool, grants⟩
    · rw [State.setPorts_store, store, heard_store]
    · intro o inside gap
      rw [State.setPorts_store, store]
      exact imageByte_writtenImage_gap _ _ _ _ inside gap
    · intro f mem
      rw [State.setPorts_store, store, fieldValue_writtenImage _ _ _ f mem]
      simp only [fieldReached_iff]
      rfl

end Sys2Proof.Machine
end

section
/-! SUPPORT. SETUP-ENTER (R171): what its refusals are, and what entering leaves in each block. -/

namespace Sys2Proof.Machine

/-! ## What it changes -/

/-- R47: the ends of grants reach no frame but those held for the slots. Of several frames that name a
slot, the first is the one held for it. -/
theorem frameOf_endGrants_unheld (cause : EndCause) (slots : List SlotId) (s : State) (i : FrameId)
    (h : ∀ k, k ∈ slots → heldFor s k ≠ some i) :
    frameOf (endGrants cause s slots) i = frameOf s i := by
  induction slots generalizing s with
  | nil => rfl
  | cons j rest ih =>
    have kept := endGrant_kept cause s j
    have rests := ih (endGrant cause s j) fun k mem =>
      (kept.heldFor_eq k).symm ▸ h k (List.mem_cons_of_mem j mem)
    refine rests.trans ?_
    unfold endGrant recordCause
    split
    · rw [frameOf_modGrant]
      split
      · rfl
      · rename_i m held
        refine frameOf_modFrame_other s m i _ ?_
        rintro rfl
        exact h j (List.mem_cons_self ..) held
    · rfl

/-- R142: only an occurrence of SETTINGS-LOST can be held. -/
theorem heldLost_raiseOccurrence_other {k : AlertKind} (s : State) (h : k ≠ .settingsLost) :
    (raiseOccurrence k s).alerts.heldLost = s.alerts.heldLost := by
  have other : (k == .settingsLost) = false := by simpa using h
  apply Vector.ext
  intro q hq
  simpa [other] using heldLost_raiseOccurrence k s ⟨q, hq⟩

/-- R171: the store once a port has become setup holder. -/
def storeEntered (p : PortId) (s : State) : SettingsStore :=
  { s.store with setup := some { holder := p, entrySnapshot := s.store.image } }

/-- R171: the planner of a part in SETUP. -/
def plannerSuspended (s : State) : Planner := { s.planner with state := .suspended, lateMark := false }

/-- R50, R171: the sources and frames after an entry are those the revocation of every grant leaves. -/
def entryRevoked (p : PortId) (s : State) : State :=
  revokeAll .setupEnter (s.setStore (storeEntered p s))

theorem entryRevoked_moved (p : PortId) (s : State) :
    SourcesMoved (s.setStore (storeEntered p s)) (entryRevoked p s) := revokeAll_moved _ _

/-- R171: entering revokes every grant, suspends the planner and raises SETUP-CHANGE. -/
theorem setupEntered_eq (p : PortId) (s : State) : setupEntered p s =
    raiseOccurrence .setupChange ((entryRevoked p s).setPlanner (plannerSuspended s)) := by
  have planner : (entryRevoked p s).planner = s.planner := (entryRevoked_moved p s).planner_eq
  rw [plannerSuspended, ← planner]
  rfl

/-- R171: the blocks that an entry changes. -/
theorem setupEntered_blocks (p : PortId) (s : State) : ∃ alerts, setupEntered p s =
    ((((s.setStore (storeEntered p s)).setPool (entryRevoked p s).pool).setTable
      (entryRevoked p s).table).setPlanner (plannerSuspended s)).setAlerts alerts := by
  rw [setupEntered_eq, ← (entryRevoked_moved p s).1]
  exact ⟨_, raiseOccurrence_eq _ _⟩

/-- R142, R171: an entry leaves the modes and the awaiting-clear sets, and holds nothing. -/
theorem setupEntered_alerts (p : PortId) (s : State) :
    (setupEntered p s).alerts.modes = s.alerts.modes ∧
      (setupEntered p s).alerts.awaiting = s.alerts.awaiting ∧
      (setupEntered p s).alerts.heldLost = s.alerts.heldLost := by
  rw [setupEntered_eq, raiseOccurrence_modes, raiseOccurrence_awaiting,
    heldLost_raiseOccurrence_other _ (by decide), State.setPlanner_alerts,
    (entryRevoked_moved p s).alerts_eq]
  exact ⟨rfl, rfl, rfl⟩

/-- R142, R171: an entry raises SETUP-CHANGE. -/
theorem mem_pendingOf_setupEntered (p : PortId) (s : State) (q : PortId) (j : AlertKind) :
    j ∈ pendingOf (setupEntered p s) q ↔
      j ∈ pendingOf s q ∨ (j = .setupChange ∧ subscribed s q j = true) := by
  have pend : pendingOf ((entryRevoked p s).setPlanner (plannerSuspended s)) q = pendingOf s q := by
    rw [pendingOf, State.setPlanner_alerts, (entryRevoked_moved p s).alerts_eq]
    rfl
  have mask : subscribed ((entryRevoked p s).setPlanner (plannerSuspended s)) q .setupChange =
      subscribed s q .setupChange := by
    rw [subscribed, State.setPlanner_store, (entryRevoked_moved p s).store_eq]
    rfl
  rw [setupEntered_eq, mem_pendingOf_raiseOccurrence, pend, mask]
  exact or_congr_right (and_congr_right fun same => by rw [same])

/-- R47, R171: an entry ends the grant of every RUNNING source, and leaves any other. -/
theorem grantOf_entryRevoked (p : PortId) (s : State) (k : SlotId) :
    ((grantOf s k).state = .running → grantOf (entryRevoked p s) k =
        grantEnded (recordOf s k).minRest (heldFor s k).isSome (grantOf s k) ∧
      ∀ i, heldFor s k = some i → (frameOf (entryRevoked p s) i).result =
        { (frameOf s i).result with endCause := .setupEnter }) ∧
    ((grantOf s k).state ≠ .running → grantOf (entryRevoked p s) k = grantOf s k) := by
  refine ⟨fun running => ?_, fun other => ?_⟩
  · have mem : k ∈ runningSlots (s.setStore (storeEntered p s)) :=
      (mem_runningSlots _ k).mpr (beq_iff_eq.mpr running)
    exact endGrants_ends .setupEnter mem running
  · exact grantOf_revokeAll_other .setupEnter (s.setStore (storeEntered p s)) k other

/-- R47, R171: an entry reaches no frame but those held for RUNNING sources. -/
theorem frameOf_entryRevoked (p : PortId) (s : State) (i : FrameId)
    (unheld : ∀ k, (grantOf s k).state = .running → heldFor s k ≠ some i) :
    frameOf (entryRevoked p s) i = frameOf s i := by
  refine frameOf_endGrants_unheld .setupEnter _ (s.setStore (storeEntered p s)) i fun k mem => ?_
  have running : isGrantRunning s k = true := (mem_runningSlots _ k).mp mem
  exact unheld k (beq_iff_eq.mp running)

theorem entryRevoked_poolKept (p : PortId) (s : State) : poolKept s (entryRevoked p s) :=
  endGrants_kept .setupEnter (s.setStore (storeEntered p s)) _

/-! ## What it answers -/

theorem exec_setupEnter {p : PortId} {s : State} (decoding : decodes s p = true) :
    exec (.setupEnter p) s = .next (answered p (setupEnterAnswer p (heard p s))) :=
  serve_decodes p _ s decoding

theorem inSetup_heard (p : PortId) (s : State) : inSetup (heard p s) = inSetup s := rfl

theorem setupEntered_ports (p : PortId) (s : State) : (setupEntered p s).ports = s.ports := by
  obtain ⟨alerts, entered⟩ := setupEntered_blocks p s
  rw [entered]
  rfl

theorem exec_setupEnter_accepted {p : PortId} {s : State} (decoding : decodes s p = true)
    (outside : inSetup s = false) (idle : s.store.storing = none) :
    exec (.setupEnter p) s =
      .next ((setupEntered p (heard p s)).setPorts (replied s p ⟨.ok, []⟩)) := by
  rw [exec_setupEnter decoding]
  simp [setupEnterAnswer, inSetup_heard, outside, idle, accepted,
    answered_of_ports p _ s _ (setupEntered_ports p (heard p s))]

/-- Settles O46: in SETUP, in a store, and otherwise the entry, block by block. -/
theorem setupEnterSuspends : Obligations.SetupEnterSuspends := by
  unfold Obligations.SetupEnterSuspends
  intro p s decoding
  refine ⟨fun setup => ?_, fun outside storing => ?_, fun outside idle => ?_⟩
  · rw [exec_setupEnter decoding]
    simp [setupEnterAnswer, inSetup_heard, setup, answered_refused]
  · rw [exec_setupEnter decoding]
    simp [setupEnterAnswer, inSetup_heard, outside, Option.isSome_iff_ne_none.mpr storing,
      answered_refused]
  · have accepts := exec_setupEnter_accepted decoding outside idle
    obtain ⟨ports, hears⟩ : ∃ ports, heard p s = s.setPorts ports := ⟨_, heard_eq p s⟩
    rw [hears] at accepts
    obtain ⟨modes, awaiting, lost⟩ := setupEntered_alerts p (s.setPorts ports)
    have pend := mem_pendingOf_setupEntered p (s.setPorts ports)
    have records := (entryRevoked_moved p (s.setPorts ports)).2.1
    have kept := entryRevoked_poolKept p (s.setPorts ports)
    have grants := grantOf_entryRevoked p (s.setPorts ports)
    have unheld := frameOf_entryRevoked p (s.setPorts ports)
    obtain ⟨alerts, entered⟩ := setupEntered_blocks p (s.setPorts ports)
    rw [entered] at accepts modes awaiting lost
    simp only [entered] at pend
    generalize entryRevoked p (s.setPorts ports) = u at *
    exact ⟨_, accepts, rfl, rfl, rfl, rfl, rfl, records, kept, modes, awaiting, lost, grants, unheld,
      pend⟩

end Sys2Proof.Machine
end

section
/-! SUPPORT. The checks of SETUP-EXIT (R173): what each of the seven asks, that the first to fail is the one
answered, and who may leave. -/

namespace Sys2Proof.Machine

/-! ## The seven checks -/

theorem checkTemperatures_iff (s : State) (setup : Setup) :
    checkTemperatures s.store.image = true ↔ exitCheck s setup 1 := by
  simp [checkTemperatures, exitCheck, and_assoc]

theorem checkHysteresis_iff (s : State) (setup : Setup) :
    checkHysteresis s.store.image = true ↔ exitCheck s setup 2 := by
  simp [checkHysteresis, exitCheck]

theorem checkProbeLayers_iff (s : State) (setup : Setup) :
    checkProbeLayers s.store.image = true ↔ exitCheck s setup 3 := by
  simp only [checkProbeLayers, exitCheck, List.all_eq_true, List.mem_finRange, true_imp_iff,
    Bool.or_eq_true, beq_iff_eq, bne_iff_ne, Option.isNone_iff_eq_none]
  refine forall_congr' fun a => forall_congr' fun b => ?_
  rw [or_assoc, Decidable.or_iff_not_imp_left]
  refine imp_congr_right fun _ => ?_
  rw [or_comm, Decidable.or_iff_not_imp_left, Decidable.not_not]

theorem checkRecords_iff (s : State) (setup : Setup) :
    checkRecords s.store.image = true ↔ exitCheck s setup 4 := by
  simp only [checkRecords, exitCheck, List.all_eq_true, mem_allSlots, true_imp_iff,
    Bool.or_eq_true, Bool.and_eq_true, decide_eq_true_eq, Option.isNone_iff_eq_none]
  exact forall_congr' fun k => Decidable.or_iff_not_imp_left

theorem checkShareSum_iff (s : State) (setup : Setup) :
    checkShareSum s.store.image = true ↔ exitCheck s setup 5 := by
  simp [checkShareSum, exitCheck, allPorts, List.finRange_succ, Nat.add_assoc]

/-- R173: every frame that a port owns is FREE. -/
theorem allFramesFree_iff (s : State) : allFramesFree s = true ↔
    ∀ i, ownerOf s i ≠ none → (frameOf s i).state = .free := by
  simp only [allFramesFree, List.all_eq_true, mem_allFrames, true_imp_iff, Bool.or_eq_true,
    beq_iff_eq, Option.isNone_iff_eq_none]
  exact forall_congr' fun i => Decidable.or_iff_not_imp_left

theorem checkShareChange_iff (s : State) (setup : Setup) :
    checkShareChange s setup = true ↔ exitCheck s setup 6 := by
  simp [checkShareChange, exitCheck, allFramesFree_iff]

theorem checkThreshold_iff (s : State) (setup : Setup) :
    checkThreshold s.store.image = true ↔ exitCheck s setup 7 := by
  simp [checkThreshold, exitCheck]

/-- R173: the first check that fails is the one found. -/
theorem failingCheck_of_first {s : State} {setup : Setup} {n : Nat} (one : 1 ≤ n) (seven : n ≤ 7)
    (fails : ¬exitCheck s setup n) (before : ∀ m, 1 ≤ m → m < n → exitCheck s setup m) :
    failingCheck s setup = some n := by
  have passes (m : Nat) (check : Bool) (iff : check = true ↔ exitCheck s setup m) (h : 1 ≤ m) :
      m < n → check = true := fun below => iff.mpr (before m h below)
  have first := passes 1 _ (checkTemperatures_iff s setup) (by decide)
  have second := passes 2 _ (checkHysteresis_iff s setup) (by decide)
  have third := passes 3 _ (checkProbeLayers_iff s setup) (by decide)
  have fourth := passes 4 _ (checkRecords_iff s setup) (by decide)
  have fifth := passes 5 _ (checkShareSum_iff s setup) (by decide)
  have sixth := passes 6 _ (checkShareChange_iff s setup) (by decide)
  obtain rfl | rfl | rfl | rfl | rfl | rfl | rfl :
      n = 1 ∨ n = 2 ∨ n = 3 ∨ n = 4 ∨ n = 5 ∨ n = 6 ∨ n = 7 := by omega
  · rw [← checkTemperatures_iff] at fails
    simp [failingCheck, fails]
  · rw [← checkHysteresis_iff] at fails
    simp [failingCheck, first, fails]
  · rw [← checkProbeLayers_iff] at fails
    simp [failingCheck, first, second, fails]
  · rw [← checkRecords_iff] at fails
    simp [failingCheck, first, second, third, fails]
  · rw [← checkShareSum_iff] at fails
    simp [failingCheck, first, second, third, fourth, fails]
  · rw [← checkShareChange_iff] at fails
    simp [failingCheck, first, second, third, fourth, fifth, fails]
  · rw [← checkThreshold_iff s setup] at fails
    simp [failingCheck, first, second, third, fourth, fifth, sixth, fails]

/-! ## What SETUP-EXIT answers -/

theorem exec_setupExit {p : PortId} {s : State} (decoding : decodes s p = true) :
    exec (.setupExit p) s = .next (answered p (setupExitAnswer p (heard p s))) :=
  serve_decodes p _ s decoding

theorem failingCheck_heard (p : PortId) (s : State) (setup : Setup) :
    failingCheck (heard p s) setup = failingCheck s setup := rfl

/-- Settles O47, by whether the part is in SETUP and who its holder is. -/
theorem setupExitChecks : Obligations.SetupExitChecks := by
  unfold Obligations.SetupExitChecks
  intro p s decoding
  rw [exec_setupExit decoding]
  refine ⟨fun outside => ?_, fun setup inside =>
    ⟨fun other => ?_, fun holder n one seven fails before => ?_⟩⟩
  · simp [setupExitAnswer, outside, answered_refused]
  · simp [setupExitAnswer, inside, other, answered_refused]
  · have failing := failingCheck_of_first one seven fails before
    simp [setupExitAnswer, inside, holder, failingCheck_heard, failing, answered_heard]

end Sys2Proof.Machine
end

section
/-! SUPPORT. What one command can do (R153, R156): `exec_effect` says once which named operation each of the
42 commands comes to, and under which guard; `step_keeps` derives an invariant of every step from it. -/

namespace Sys2Proof.Machine

/-! ## Partner commands -/

/-- The port a partner command comes on, and what the command answers there. -/
def partnerAnswer : Instr → Option (PortId × (State → Answer))
  | .badCommand p _ => some (p, refused .badCommand)
  | .ident p => some (p, fun t => accepted (identBytes t) t)
  | .status p => some (p, fun t => accepted (statusBytes t p) t)
  | .take p => some (p, takeAnswer p)
  | .fill p index offset data => some (p, fillAnswer p index offset data)
  | .frameRead p index => some (p, frameReadAnswer p index)
  | .post p index => some (p, postAnswer p index)
  | .giveBack p index => some (p, giveBackAnswer p index)
  | .replyTake p => some (p, replyTakeAnswer p)
  | .release p index => some (p, releaseAnswer p index)
  | .alertTake p => some (p, alertTakeAnswer p)
  | .alertDone p kind => some (p, alertDoneAnswer p kind)
  | .select p index => some (p, selectAnswer p index)
  | .setRead p n => some (p, setReadAnswer p n)
  | .setWrite p data => some (p, setWriteAnswer p data)
  | .setupEnter p => some (p, setupEnterAnswer p)
  | .setupExit p => some (p, setupExitAnswer p)
  | .setupAbandon p => some (p, setupAbandonAnswer p)
  | .store p => some (p, storeAnswer)
  | .restart p => some (p, restartAnswer p)
  | .portReset p => some (p, portResetAnswer p)
  | .modelRead p => some (p, fun t => accepted (modelReadBytes t) t)
  | .sourceRead p slot => some (p, sourceReadAnswer slot)
  | _ => none

/-- R153: a partner command is served on its port. -/
theorem exec_partner {c : Instr} {p : PortId} {body : State → Answer} (s : State)
    (h : partnerAnswer c = some (p, body)) : exec c s = serve p body s := by
  cases c <;> cases h <;> rfl

/-- R183: the commands that partners send bytes for are those that are served. -/
theorem partnerAnswer_of_transactionBytes {c : Instr} {p : PortId} {bytes : List Byte}
    (h : transactionBytes c = some (p, bytes)) : ∃ body, partnerAnswer c = some (p, body) := by
  cases c <;> cases h <;> exact ⟨_, rfl⟩

/-- What a partner command can do to the state, its port's liveness and response aside. -/
inductive Served (p : PortId) (s : State) : State → Prop
  | unchanged : Served p s s
  | taken (i : FrameId) (rest : List FrameId) (head : freeList s p = i :: rest) :
      Served p s (modFrame (setFreeList s p rest) i fun _ => clearedFrame .taken)
  | filled (i : FrameId) (offset : Nat) (data : List Byte) (state : (frameOf s i).state = .taken) :
      Served p s (modFrame s i fun fr => { fr with request := writeRequest fr.request offset data })
  | posted (i : FrameId) (owner : ownerOf s i = some p) (state : (frameOf s i).state = .taken) :
      Served p s (setPostList
        (modFrame s i fun fr => { fr with state := .posted, result := clearedResult }) p
        (postList s p ++ [i]))
  | freed (i : FrameId) (owner : ownerOf s i = some p)
      (state : (frameOf s i).state = .taken ∨ (frameOf s i).state = .collected) :
      Served p s (freed s p i)
  | collected (i : FrameId) (rest : List FrameId) (head : replyQueue s p = i :: rest) :
      Served p s (setReplyQueue (setFrameState s i .collected) p rest)
  | alertTaken (k : AlertKind) (pending : k ∈ pendingOf s p) : Served p s (takeKind s p k)
  | acknowledged (k : AlertKind) (waiting : k ∈ awaitingOf s p) :
      Served p s (acknowledgeKind s p k)
  | selected (n : Nat) : Served p s (setSelector p n s)
  | written (n : Nat) (data : List Byte)
      (permitted : writeRefusal s p (portOf s p).selector data.length = none) :
      Served p s (setSelector p n (imageWritten (portOf s p).selector data s))
  | entered (outside : inSetup s = false) : Served p s (setupEntered p s)
  | exited (setup : Setup) (inside : s.store.setup = some setup)
      (passes : failingCheck s setup = none) : Served p s (setupExited s)
  | restored (setup : Setup) (inside : s.store.setup = some setup) :
      Served p s (endSetupRestoring s)
  | storing (copy : Image) : Served p s (s.setStore { s.store with storing := some copy })
  | armed : Served p s (s.setPart { s.part with restartArmed := s.part.restartArmed.set p true })
  | portReset (idle : planInFlight s = false) :
      Served p s (modPort (emptyAlerts p (resetFrames p s)) p fun port => { port with selector := 0 })

/-- R66: a named frame is owned by the port that names it. -/
theorem namedFrame_ok {s : State} {p : PortId} {index : Byte} {i : FrameId}
    (h : namedFrame s p index = .ok i) : ownerOf s i = some p := by
  unfold namedFrame at h
  split at h
  · cases h
  · split at h
    · cases h; assumption
    · cases h

/-- R66: a frame accepted in one state is owned by the port and in that state. -/
theorem frameInState_ok {s : State} {p : PortId} {index : Byte} {st : FrameState} {i : FrameId}
    (h : frameInState s p index st = .ok i) : ownerOf s i = some p ∧ (frameOf s i).state = st := by
  unfold frameInState at h
  split at h
  · cases h
  · rename_i j named
    split at h
    · cases h; exact ⟨namedFrame_ok named, by assumption⟩
    · cases h

theorem fillTarget_ok {s : State} {p : PortId} {index offset : Byte} {data : List Byte} {i : FrameId}
    (h : fillTarget s p index offset data = .ok i) : (frameOf s i).state = .taken := by
  unfold fillTarget at h
  split at h
  · cases h
  · split at h
    · cases h
    · split at h
      · cases h; assumption
      · cases h

theorem lowestPending_mem {s : State} {p : PortId} {k : AlertKind} (h : lowestPending s p = some k) :
    k ∈ pendingOf s p := by
  simpa using List.find?_some h

/-- R156: what each partner command can do. -/
theorem served_of_partnerAnswer {c : Instr} {p : PortId} {body : State → Answer} (s : State)
    (h : partnerAnswer c = some (p, body)) : Served p s (body s).2 := by
  cases c <;> cases h
  case badCommand => exact .unchanged
  case ident => exact .unchanged
  case status => exact .unchanged
  case modelRead => exact .unchanged
  case take =>
    unfold takeAnswer
    split
    · exact .unchanged
    · exact .taken _ _ (by assumption)
  case fill =>
    unfold fillAnswer
    split
    · exact .unchanged
    · rename_i target
      exact .filled _ _ _ (fillTarget_ok target)
  case frameRead =>
    unfold frameReadAnswer
    split <;> exact .unchanged
  case post =>
    unfold postAnswer
    split
    · exact .unchanged
    · rename_i target
      exact .posted _ (frameInState_ok target).1 (frameInState_ok target).2
  case giveBack =>
    unfold giveBackAnswer
    split
    · exact .unchanged
    · rename_i target
      exact .freed _ (frameInState_ok target).1 (.inl (frameInState_ok target).2)
  case replyTake =>
    unfold replyTakeAnswer
    split
    · exact .unchanged
    · exact .collected _ _ (by assumption)
  case release =>
    unfold releaseAnswer
    split
    · exact .unchanged
    · rename_i target
      exact .freed _ (frameInState_ok target).1 (.inr (frameInState_ok target).2)
  case alertTake =>
    unfold alertTakeAnswer
    split
    · exact .unchanged
    · rename_i lowest
      exact .alertTaken _ (lowestPending_mem lowest)
  case alertDone =>
    unfold alertDoneAnswer
    split
    · exact .unchanged
    · split
      · rename_i waiting
        exact .acknowledged _ (by simpa using waiting)
      · exact .unchanged
  case select =>
    unfold selectAnswer
    split
    · exact .selected _
    · exact .unchanged
  case setRead =>
    unfold setReadAnswer
    dsimp only
    split
    · exact .selected _
    · exact .unchanged
  case setWrite =>
    unfold setWriteAnswer
    dsimp only
    split
    · split
      · exact .unchanged
      · rename_i permitted
        exact .written _ _ permitted
    · exact .unchanged
  case setupEnter =>
    unfold setupEnterAnswer
    split
    · exact .unchanged
    · rename_i outside
      split
      · exact .unchanged
      · exact .entered (by simpa using outside)
  case setupExit =>
    unfold setupExitAnswer
    split
    · exact .unchanged
    · rename_i setup inside
      split
      · exact .unchanged
      · split
        · exact .unchanged
        · rename_i passes
          exact .exited setup inside passes
  case setupAbandon =>
    unfold setupAbandonAnswer
    split
    · exact .unchanged
    · rename_i setup inside
      split
      · exact .unchanged
      · exact .restored setup inside
  case store =>
    unfold storeAnswer
    split
    · exact .unchanged
    · split
      · exact .unchanged
      · exact .storing _
  case restart =>
    unfold restartAnswer
    split
    · exact .unchanged
    · split
      · exact .unchanged
      · exact .armed
  case portReset =>
    unfold portResetAnswer
    split
    · exact .unchanged
    · rename_i idle
      exact .portReset (by simpa using idle)
  case sourceRead =>
    unfold sourceReadAnswer
    split <;> exact .unchanged

/-! ## Every command -/

/-- What one command can do to the state. -/
inductive Effect (s : State) : State → Prop
  | unchanged : Effect s s
  | reset (part : Part) (loading : part.phase = .loading) : Effect s (resetBlocks part s)
  | loaded (halted : isRunning s = false) : Effect s (loadCompleted s)
  | scanStarted (running : isRunning s = true) (free : s.scanner.scan = none) :
      Effect s (completeIfEmpty (beginScan s))
  | readEnded (n : ProbeId) (rest : List ProbeId) (scan : Scan) (r : ReadResult)
      (inFlight : s.scanner.scan = some scan) (reads : scan.toRead = n :: rest) :
      Effect s (readEnded s scan r)
  | periodStarted (running : isRunning s = true) (timer : s.planner.timerRunning = true) :
      Effect s (periodStart false s)
  | planCompleted (plan : Plan)
      (planning : s.planner.state = .planningFull plan ∨ s.planner.state = .planningLate plan) :
      Effect s (beginMarkedLatePlan (planEnded (applyPlan plan s)))
  | planDropped (plan : Plan) (planning : s.planner.state = .planningLate plan) :
      Effect s (beginMarkedLatePlan (planEnded s))
  | intake (p : PortId) (running : isRunning s = true) (free : intakeHeldOff s = false) :
      Effect s (takeThenPlan p s)
  | pinSet (l : Line) (level : Level) : Effect s (setLine s l { lineOf s l with pin := level })
  | pinChanged (l : Line) (level : Level) (running : isRunning s = true) :
      Effect s (pinChanged l level s)
  | settled (l : Line) (level : Level) : Effect s (takeLevel l level s)
  | storeCompleted (copy readBack : Image) : Effect s (storeCompleted copy readBack s)
  | ticked (n : Nat) : Effect s (s.setPlanner { s.planner with secondsRemaining := n })
  | released (part : Part) (phase : part.phase = s.part.phase) : Effect s (s.setPart part)
  | served (p : PortId) (r : Response) (t : State) (running : isRunning s = true)
      (body : Served p (heard p s) t) : Effect s (answered p (r, t))

/-- A served command is an effect. -/
theorem serve_effect {c : Instr} {p : PortId} {body : State → Answer} (s : State)
    (h : partnerAnswer c = some (p, body)) : ∃ t, exec c s = .next t ∧ Effect s t := by
  rw [exec_partner s h]
  by_cases decoding : decodes s p = true
  · exact ⟨_, serve_decodes p body s decoding,
      .served p _ _ (decodes_running s p decoding) (served_of_partnerAnswer (heard p s) h)⟩
  · exact ⟨s, serve_disregards p body s (by simpa using decoding), .unchanged⟩

theorem currentRead_some {s : State} {n : ProbeId} {scan : Scan}
    (h : currentRead s = some (n, scan)) :
    s.scanner.scan = some scan ∧ ∃ rest, scan.toRead = n :: rest := by
  unfold currentRead at h
  split at h
  · cases h
  · rename_i x inFlight
    split at h
    · cases h
    · rename_i m rest reads
      cases h
      exact ⟨inFlight, rest, reads⟩

/-- R156: every command has an effect of the list. -/
theorem exec_effect (c : Instr) (s : State) : ∃ t, exec c s = .next t ∧ Effect s t := by
  cases c
  case powerOnReset => exact ⟨_, rfl, .reset _ rfl⟩
  case resetPinReset =>
    simp only [exec, execResetPinReset]
    split
    · exact ⟨_, rfl, .unchanged⟩
    · exact ⟨_, rfl, .reset _ rfl⟩
  case supplyLowReset =>
    simp only [exec, execSupplyLowReset]
    split
    · exact ⟨_, rfl, .unchanged⟩
    · exact ⟨_, rfl, .reset _ rfl⟩
  case restartReset =>
    simp only [exec, execRestartReset]
    split
    · exact ⟨_, rfl, .reset _ rfl⟩
    · exact ⟨_, rfl, .unchanged⟩
  case startUpLoad =>
    simp only [exec, execStartUpLoad]
    split
    · exact ⟨_, rfl, .unchanged⟩
    · rename_i free
      simp only [Bool.or_eq_true, not_or, Bool.not_eq_true] at free
      exact ⟨_, rfl, .loaded free.1.1⟩
  case scanStart =>
    simp only [exec, execScanStart]
    split
    · rename_i starts
      simp only [Bool.and_eq_true, Option.isNone_iff_eq_none] at starts
      exact ⟨_, rfl, .scanStarted starts.1 starts.2⟩
    · exact ⟨_, rfl, .unchanged⟩
  case probeRead =>
    simp only [exec, execProbeRead]
    split
    · exact ⟨_, rfl, .unchanged⟩
    · rename_i current
      obtain ⟨inFlight, rest, reads⟩ := currentRead_some current
      exact ⟨_, rfl, .readEnded _ rest _ _ inFlight reads⟩
  case answerWindowClose =>
    simp only [exec, execAnswerWindowClose]
    split
    · exact ⟨_, rfl, .unchanged⟩
    · rename_i current
      obtain ⟨inFlight, rest, reads⟩ := currentRead_some current
      exact ⟨_, rfl, .readEnded _ rest _ _ inFlight reads⟩
  case periodStart =>
    simp only [exec, execPeriodStart]
    split
    · rename_i starts
      simp only [Bool.and_eq_true] at starts
      exact ⟨_, rfl, .periodStarted starts.1.1 starts.1.2⟩
    · exact ⟨_, rfl, .unchanged⟩
  case planCompletion =>
    simp only [exec, execPlanCompletion]
    split
    · rename_i planning
      exact ⟨_, rfl, .planCompleted _ (.inl planning)⟩
    all_goals exact ⟨_, rfl, .unchanged⟩
  case latePlanCompletion =>
    simp only [exec, execLatePlanCompletion]
    split
    · rename_i planning
      split
      · exact ⟨_, rfl, .planCompleted _ (.inr planning)⟩
      · exact ⟨_, rfl, .planDropped _ planning⟩
    all_goals exact ⟨_, rfl, .unchanged⟩
  case intakeTake =>
    simp only [exec, execIntakeTake]
    split
    · rename_i takes
      simp only [Bool.and_eq_true, Bool.not_eq_true'] at takes
      exact ⟨_, rfl, .intake _ takes.1.1 takes.1.2⟩
    · exact ⟨_, rfl, .unchanged⟩
  case inputPinChange =>
    simp only [exec, execInputPinChange]
    split
    · exact ⟨_, rfl, .unchanged⟩
    · split
      · rename_i running
        exact ⟨_, rfl, .pinChanged _ _ running⟩
      · exact ⟨_, rfl, .pinSet _ _⟩
  case settleExpiry =>
    simp only [exec, execSettleExpiry]
    split
    · exact ⟨_, rfl, .unchanged⟩
    · exact ⟨_, rfl, .settled _ _⟩
  case storeCompletion =>
    simp only [exec, execStoreCompletion]
    split
    · exact ⟨_, rfl, .unchanged⟩
    · exact ⟨_, rfl, .storeCompleted _ _⟩
  case transactionDiscarded => exact ⟨_, rfl, .unchanged⟩
  case secondsRemainingTick =>
    simp only [exec, execSecondsRemainingTick]
    split
    · exact ⟨_, rfl, .ticked _⟩
    · exact ⟨_, rfl, .unchanged⟩
  case resetPinRelease => exact ⟨_, rfl, .released _ rfl⟩
  case supplyRecovery => exact ⟨_, rfl, .released _ rfl⟩
  all_goals exact serve_effect s rfl

/-! ## Every step -/

theorem step_cons {s : State} {c : Instr} {rest : List Instr} (h : s.pending = c :: rest) :
    step s = exec c (s.setPending rest) := by
  simp [step, h]

/-- A property of the state that no command breaks and that does not look at the queue is kept by every
step. -/
theorem step_keeps {Inv : State → Prop} (queue : ∀ s q, Inv s → Inv (s.setPending q))
    (effect : ∀ s t, Inv s → Effect s t → Inv t) {s t : State} (inv : Inv s)
    (h : step s = .next t) : Inv t := by
  cases waiting : s.pending with
  | nil =>
    simp only [step, waiting] at h
    cases h
    exact inv
  | cons c rest =>
    rw [step_cons waiting] at h
    obtain ⟨u, eq, happens⟩ := exec_effect c (s.setPending rest)
    rw [eq] at h
    cases h
    exact effect _ _ (queue s rest inv) happens

/-- Settles O1: the front command runs on the queue's rest. -/
theorem stepRunsFrontCommand : Obligations.StepRunsFrontCommand := fun _ _ _ front => step_cons front

end Sys2Proof.Machine
end

section
/-! SUPPORT. What the larger events keep: no period start, no scan completion, no end of setup and no plan
reaches the part, the copied settings, the free and post lists, the modes, the wires or the queue
(R90, R95, R104, R174, R175). -/

namespace Sys2Proof.Machine

/-! ## Readers past a change of the ports, and past the emptying of alert sets -/

@[simp] theorem modPort_part (s : State) (p : PortId) (f : Port → Port) :
    (modPort s p f).part = s.part := rfl
@[simp] theorem modPort_scanner (s : State) (p : PortId) (f : Port → Port) :
    (modPort s p f).scanner = s.scanner := rfl
@[simp] theorem modPort_model (s : State) (p : PortId) (f : Port → Port) :
    (modPort s p f).model = s.model := rfl
@[simp] theorem modPort_table (s : State) (p : PortId) (f : Port → Port) :
    (modPort s p f).table = s.table := rfl
@[simp] theorem modPort_pool (s : State) (p : PortId) (f : Port → Port) :
    (modPort s p f).pool = s.pool := rfl
@[simp] theorem modPort_planner (s : State) (p : PortId) (f : Port → Port) :
    (modPort s p f).planner = s.planner := rfl
@[simp] theorem modPort_safety (s : State) (p : PortId) (f : Port → Port) :
    (modPort s p f).safety = s.safety := rfl
@[simp] theorem modPort_cycle (s : State) (p : PortId) (f : Port → Port) :
    (modPort s p f).cycle = s.cycle := rfl
@[simp] theorem modPort_alerts (s : State) (p : PortId) (f : Port → Port) :
    (modPort s p f).alerts = s.alerts := rfl
@[simp] theorem modPort_wires (s : State) (p : PortId) (f : Port → Port) :
    (modPort s p f).wires = s.wires := rfl
@[simp] theorem modPort_store (s : State) (p : PortId) (f : Port → Port) :
    (modPort s p f).store = s.store := rfl
@[simp] theorem modPort_openDraws (s : State) (p : PortId) (f : Port → Port) :
    (modPort s p f).openDraws = s.openDraws := rfl
@[simp] theorem modPort_pending (s : State) (p : PortId) (f : Port → Port) :
    (modPort s p f).pending = s.pending := rfl

@[simp] theorem answered_part (p : PortId) (a : Answer) : (answered p a).part = a.2.part := rfl
@[simp] theorem answered_scanner (p : PortId) (a : Answer) : (answered p a).scanner = a.2.scanner := rfl
@[simp] theorem answered_model (p : PortId) (a : Answer) : (answered p a).model = a.2.model := rfl
@[simp] theorem answered_table (p : PortId) (a : Answer) : (answered p a).table = a.2.table := rfl
@[simp] theorem answered_pool (p : PortId) (a : Answer) : (answered p a).pool = a.2.pool := rfl
@[simp] theorem answered_planner (p : PortId) (a : Answer) : (answered p a).planner = a.2.planner := rfl
@[simp] theorem answered_safety (p : PortId) (a : Answer) : (answered p a).safety = a.2.safety := rfl
@[simp] theorem answered_cycle (p : PortId) (a : Answer) : (answered p a).cycle = a.2.cycle := rfl
@[simp] theorem answered_alerts (p : PortId) (a : Answer) : (answered p a).alerts = a.2.alerts := rfl
@[simp] theorem answered_wires (p : PortId) (a : Answer) : (answered p a).wires = a.2.wires := rfl
@[simp] theorem answered_store (p : PortId) (a : Answer) : (answered p a).store = a.2.store := rfl
@[simp] theorem answered_openDraws (p : PortId) (a : Answer) : (answered p a).openDraws = a.2.openDraws := rfl
@[simp] theorem answered_pending (p : PortId) (a : Answer) : (answered p a).pending = a.2.pending := rfl

@[simp] theorem emptyAlerts_part (p : PortId) (s : State) : (emptyAlerts p s).part = s.part := rfl
@[simp] theorem emptyAlerts_scanner (p : PortId) (s : State) : (emptyAlerts p s).scanner = s.scanner := rfl
@[simp] theorem emptyAlerts_model (p : PortId) (s : State) : (emptyAlerts p s).model = s.model := rfl
@[simp] theorem emptyAlerts_table (p : PortId) (s : State) : (emptyAlerts p s).table = s.table := rfl
@[simp] theorem emptyAlerts_pool (p : PortId) (s : State) : (emptyAlerts p s).pool = s.pool := rfl
@[simp] theorem emptyAlerts_planner (p : PortId) (s : State) : (emptyAlerts p s).planner = s.planner := rfl
@[simp] theorem emptyAlerts_safety (p : PortId) (s : State) : (emptyAlerts p s).safety = s.safety := rfl
@[simp] theorem emptyAlerts_cycle (p : PortId) (s : State) : (emptyAlerts p s).cycle = s.cycle := rfl
@[simp] theorem emptyAlerts_wires (p : PortId) (s : State) : (emptyAlerts p s).wires = s.wires := rfl
@[simp] theorem emptyAlerts_store (p : PortId) (s : State) : (emptyAlerts p s).store = s.store := rfl
@[simp] theorem emptyAlerts_openDraws (p : PortId) (s : State) : (emptyAlerts p s).openDraws = s.openDraws := rfl
@[simp] theorem emptyAlerts_pending (p : PortId) (s : State) : (emptyAlerts p s).pending = s.pending := rfl
@[simp] theorem emptyAlerts_ports (p : PortId) (s : State) : (emptyAlerts p s).ports = s.ports := rfl

/-- The blocks and the copies of settings that no period start, scan completion or end of setup
reaches. -/
structure EventKept (s t : State) : Prop where
  part : t.part = s.part
  records : t.table.records = s.table.records
  shares : t.pool.shares = s.pool.shares
  freeLists : t.pool.freeLists = s.pool.freeLists
  postLists : t.pool.postLists = s.pool.postLists
  modes : t.alerts.modes = s.alerts.modes
  wires : t.wires = s.wires
  pending : t.pending = s.pending
  periodLength : t.planner.periodLength = s.planner.periodLength
  lateThreshold : t.planner.lateThreshold = s.planner.lateThreshold
  timeout : t.ports.timeout = s.ports.timeout
  interval : t.cycle.interval = s.cycle.interval
  hold : t.cycle.hold = s.cycle.hold
  deadline : t.cycle.deadline = s.cycle.deadline
  tDis : t.cycle.tDis = s.cycle.tDis
  floor : t.cycle.floor = s.cycle.floor
  x0 : t.safety.x0 = s.safety.x0
  x1 : t.safety.x1 = s.safety.x1
  page : t.store.page = s.store.page
  storing : t.store.storing = s.store.storing
  lastStore : t.store.lastStore = s.store.lastStore

theorem EventKept.refl (s : State) : EventKept s s := by constructor <;> rfl

theorem EventKept.trans {s t u : State} (h : EventKept s t) (k : EventKept t u) : EventKept s u where
  part := k.part.trans h.part
  records := k.records.trans h.records
  shares := k.shares.trans h.shares
  freeLists := k.freeLists.trans h.freeLists
  postLists := k.postLists.trans h.postLists
  modes := k.modes.trans h.modes
  wires := k.wires.trans h.wires
  pending := k.pending.trans h.pending
  periodLength := k.periodLength.trans h.periodLength
  lateThreshold := k.lateThreshold.trans h.lateThreshold
  timeout := k.timeout.trans h.timeout
  interval := k.interval.trans h.interval
  hold := k.hold.trans h.hold
  deadline := k.deadline.trans h.deadline
  tDis := k.tDis.trans h.tDis
  floor := k.floor.trans h.floor
  x0 := k.x0.trans h.x0
  x1 := k.x1.trans h.x1
  page := k.page.trans h.page
  storing := k.storing.trans h.storing
  lastStore := k.lastStore.trans h.lastStore

section
variable {s t : State} (h : EventKept s t)
include h

theorem EventKept.isRunning_eq : isRunning t = isRunning s := by simp [isRunning, h.part]

theorem EventKept.recordOf_eq (k : SlotId) : recordOf t k = recordOf s k := by
  simp [recordOf, h.records]

theorem EventKept.ownerOf_eq (i : FrameId) : ownerOf t i = ownerOf s i := by
  simp [ownerOf, h.shares]

theorem EventKept.lineOf_eq (l : Line) : lineOf t l = lineOf s l := by
  cases l
  · exact h.x0
  · exact h.x1

theorem EventKept.lineActive_eq (l : Line) : lineActive t l = lineActive s l := by
  simp [lineActive, h.isRunning_eq, h.lineOf_eq]

theorem EventKept.modeOf_eq (k : AlertKind) : modeOf t k = modeOf s k := by simp [modeOf, h.modes]

theorem EventKept.freeList_eq (p : PortId) : freeList t p = freeList s p := by
  simp [freeList, h.freeLists]

theorem EventKept.postList_eq (p : PortId) : postList t p = postList s p := by
  simp [postList, h.postLists]

end

theorem SourcesMoved.eventKept {s t : State} (h : SourcesMoved s t) : EventKept s t := by
  obtain ⟨eq, records, shares, free, post⟩ := h
  constructor <;> first | assumption | (rw [eq]; rfl)

/-! ## The operations the events are made of -/

theorem setPlanner_eventKept (s : State) (x : Planner)
    (length : x.periodLength = s.planner.periodLength)
    (threshold : x.lateThreshold = s.planner.lateThreshold) : EventKept s (s.setPlanner x) := by
  constructor <;> first | rfl | assumption

theorem setAlerts_eventKept (s : State) (x : AlertRouter) (modes : x.modes = s.alerts.modes) :
    EventKept s (s.setAlerts x) := by
  constructor <;> first | rfl | assumption

theorem setScanner_eventKept (s : State) (x : Scanner) : EventKept s (s.setScanner x) := by
  constructor <;> rfl

theorem setModel_eventKept (s : State) (x : LayerModel) : EventKept s (s.setModel x) := by
  constructor <;> rfl

theorem nextDraw_eventKept (s : State) : EventKept s s.nextDraw := by constructor <;> rfl

theorem setOvertemp_eventKept (s : State) (overtemp : Bool) :
    EventKept s (s.setSafety { s.safety with overtemp := overtemp }) := by
  constructor <;> rfl

theorem setImage_eventKept (s : State) (img : Image) :
    EventKept s (s.setStore { s.store with image := img }) := by
  constructor <;> rfl

theorem clearSetup_eventKept (s : State) (x : Option Setup) :
    EventKept s (s.setStore { s.store with setup := x }) := by
  constructor <;> rfl

theorem eachPort_eventKept (s : State) (f : PortId → Port → Port) : EventKept s (eachPort s f) := by
  constructor <;> rfl

theorem raiseOccurrence_eventKept (k : AlertKind) (s : State) :
    EventKept s (raiseOccurrence k s) := setAlerts_eventKept s _ rfl

theorem followConditions_eventKept (before s : State) :
    EventKept s (followConditions before s) := setAlerts_eventKept s _ rfl

theorem settleMasks_eventKept (old : Image) (s : State) : EventKept s (settleMasks old s) := by
  rw [settleMasks_eq]
  exact setAlerts_eventKept s _ (settleMasks_modes old s)

/-- R131: the cycle's evaluation leaves its copy of the settings. -/
theorem cycleEvaluated_settings (s : State) :
    (cycleEvaluated s).1.interval = s.cycle.interval ∧ (cycleEvaluated s).1.hold = s.cycle.hold ∧
      (cycleEvaluated s).1.deadline = s.cycle.deadline ∧
      (cycleEvaluated s).1.tDis = s.cycle.tDis ∧ (cycleEvaluated s).1.floor = s.cycle.floor := by
  unfold cycleEvaluated
  dsimp only
  split
  · exact ⟨rfl, rfl, rfl, rfl, rfl⟩
  · split
    · exact ⟨rfl, rfl, rfl, rfl, rfl⟩
    · dsimp only [cycleCounted]
      split <;> exact ⟨rfl, rfl, rfl, rfl, rfl⟩
  · split <;> exact ⟨rfl, rfl, rfl, rfl, rfl⟩

theorem setCycle_eventKept (s : State) :
    EventKept s (s.setCycle (cycleEvaluated s).1) := by
  obtain ⟨interval, hold, deadline, tDis, floor⟩ := cycleEvaluated_settings s
  constructor <;> first | assumption | rfl

theorem evaluateCycle_eventKept (s : State) : EventKept s (evaluateCycle s) := by
  have follow := (setCycle_eventKept s).trans (followConditions_eventKept s _)
  unfold evaluateCycle
  split
  · exact follow.trans (raiseOccurrence_eventKept _ _)
  · exact follow

theorem countSilence_eventKept (s : State) : EventKept s (countSilence s) := by
  have counted := (endGrants_moved .portSilent s
    ((runningSlots s).filter fun k => ownerFallsSilent s k)).eventKept.trans
      (eachPort_eventKept _ fun p port =>
        { port with active := port.active && !fallsSilent s p
                    silence := silenceAfter s.ports.timeout port })
  unfold countSilence
  split
  · exact counted.trans (raiseOccurrence_eventKept _ _)
  · exact counted

theorem beginFullPlan_eventKept (s : State) : EventKept s (beginFullPlan s) :=
  setPlanner_eventKept s _ rfl rfl

theorem planAtPeriodStart_eventKept (s : State) : EventKept s (planAtPeriodStart s) := by
  unfold planAtPeriodStart
  split
  · exact setPlanner_eventKept s _ rfl rfl
  · exact beginFullPlan_eventKept s

theorem takeSnapshot_eventKept (s : State) : EventKept s (takeSnapshot s) :=
  setPlanner_eventKept s _ rfl rfl

theorem advancePeriod_eventKept (first : Bool) (s : State) : EventKept s (advancePeriod first s) :=
  setPlanner_eventKept s _ rfl rfl

theorem beginMarkedLatePlan_eventKept (s : State) : EventKept s (beginMarkedLatePlan s) := by
  unfold beginMarkedLatePlan
  split
  · split <;> exact setPlanner_eventKept s _ rfl rfl
  · exact .refl s

theorem markLate_eventKept (s : State) : EventKept s (markLate s) := setPlanner_eventKept s _ rfl rfl

theorem latePlanAsk_eventKept (s : State) : EventKept s (latePlanAsk s) := by
  unfold latePlanAsk
  split
  · exact (markLate_eventKept s).trans (beginMarkedLatePlan_eventKept _)
  · exact markLate_eventKept s
  · exact markLate_eventKept s
  · exact .refl s

theorem planEnded_eventKept (s : State) : EventKept s (planEnded s) :=
  setPlanner_eventKept s _ rfl rfl

theorem applyPlan_eventKept (plan : Plan) (s : State) : EventKept s (applyPlan plan s) := by
  obtain ⟨u, moved, eq⟩ := applyPlan_eq plan s
  rw [eq]
  have figures : EventKept u (u.setPlanner { u.planner with published := plan.figures }) :=
    setPlanner_eventKept u _ rfl rfl
  exact moved.eventKept.trans (figures.trans (followConditions_eventKept u _))

/-! ## The events -/

/-- R88, R95: what a period start keeps of the settings. -/
theorem periodStartTaken_eventKept (first : Bool) (s : State) :
    EventKept s (periodStartTaken first s) := by
  unfold periodStartTaken
  refine .trans ?_ (nextDraw_eventKept _)
  refine .trans ?_ (planAtPeriodStart_eventKept _)
  refine .trans ?_ (takeSnapshot_eventKept _)
  refine .trans ?_ (countSilence_eventKept _)
  refine .trans ?_ (evaluateCycle_eventKept _)
  refine .trans ?_ (expireRequests_moved _).eventKept
  refine .trans ?_ (endGrants_moved _ _ _).eventKept
  refine .trans ?_ (ageRequests_moved _).eventKept
  refine .trans ?_ (countSources_moved _).eventKept
  exact (advancePeriod_eventKept first s).trans (raiseOccurrence_eventKept _ _)

theorem applyScan_eventKept (scan : Scan) (s : State) : EventKept s (applyScan scan s) :=
  (setScanner_eventKept s _).trans (setModel_eventKept _ _)

/-- R15: what a scan completion keeps. -/
theorem scanApplied_eventKept (scan : Scan) (s : State) : EventKept s (scanApplied scan s) := by
  obtain ⟨overtemp, moved⟩ := neighboursTake_eq scan (applyScan scan s)
  refine .trans ?_ (nextDraw_eventKept _)
  refine .trans ?_ (followConditions_eventKept _ _)
  refine .trans ?_ moved.eventKept
  exact (applyScan_eventKept scan s).trans (setOvertemp_eventKept _ _)

theorem beginScan_eventKept (s : State) : EventKept s (beginScan s) := setScanner_eventKept s _

theorem setupLeft_eventKept (s : State) : EventKept s (setupLeft s) :=
  (beginScan_eventKept s).trans ((clearSetup_eventKept _ none).trans
    ((planEnded_eventKept _).trans (raiseOccurrence_eventKept _ _)))

theorem periodStartOfR90_eventKept (s : State) : EventKept s (periodStartOfR90 s) := by
  unfold periodStartOfR90
  split
  · exact periodStartTaken_eventKept false s
  · exact .refl s

theorem firstPeriodStart_eventKept (before s : State) : EventKept s (firstPeriodStart before s) := by
  unfold firstPeriodStart
  split
  · exact .refl s
  · exact periodStartTaken_eventKept true s

/-- R90, R174: what the end of setup keeps. -/
theorem endSetup_eventKept (s : State) : EventKept s (endSetup s) := by
  refine (setupLeft_eventKept s).trans ?_
  unfold endSetup
  dsimp only
  split
  · exact periodStartOfR90_eventKept _
  · split
    · exact (scanApplied_eventKept _ _).trans (periodStartOfR90_eventKept _)
    · exact (periodStartOfR90_eventKept _).trans
        ((scanApplied_eventKept _ _).trans (firstPeriodStart_eventKept _ _))

theorem endSetupRestoring_eventKept (s : State) : EventKept s (endSetupRestoring s) := by
  unfold endSetupRestoring
  split
  · exact .refl s
  · exact (setImage_eventKept s _).trans
      ((settleMasks_eventKept _ _).trans (endSetup_eventKept _))

theorem periodStart_eventKept (first : Bool) (s : State) : EventKept s (periodStart first s) := by
  unfold periodStart
  dsimp only
  split
  · exact (periodStartTaken_eventKept first s).trans (endSetupRestoring_eventKept _)
  · exact periodStartTaken_eventKept first s

theorem scanCompleted_eventKept (scan : Scan) (s : State) : EventKept s (scanCompleted scan s) := by
  unfold scanCompleted
  dsimp only
  split
  · exact scanApplied_eventKept scan s
  · exact (scanApplied_eventKept scan s).trans (periodStart_eventKept true _)

theorem completeIfEmpty_eventKept (s : State) : EventKept s (completeIfEmpty s) := by
  unfold completeIfEmpty
  split
  · exact .refl s
  · exact scanCompleted_eventKept _ s

theorem readEnded_eventKept (s : State) (scan : Scan) (r : ReadResult) :
    EventKept s (readEnded s scan r) := by
  unfold readEnded
  dsimp only
  split
  · exact scanCompleted_eventKept _ s
  · exact setScanner_eventKept s _

/-! ## The queue -/

theorem settleFrame_pending (s : State) (p : PortId) (i : FrameId) :
    (settleFrame s p i).pending = s.pending := (settleFrame_moved s p i).pending_eq

theorem settleHead_pending (p : PortId) (s : State) : (settleHead p s).pending = s.pending := by
  unfold settleHead
  split
  · rfl
  · exact settleFrame_pending _ p _

theorem settleHeads_pending (ports : List PortId) (s : State) :
    (ports.foldl (fun t q => settleHead q t) s).pending = s.pending := by
  induction ports generalizing s with
  | nil => rfl
  | cons q rest ih => exact (ih _).trans (settleHead_pending q s)

theorem takeThenPlan_pending (p : PortId) (s : State) : (takeThenPlan p s).pending = s.pending := by
  have ask (x : State) : (latePlanAsk x).pending = x.pending := (latePlanAsk_eventKept x).pending
  unfold takeThenPlan
  dsimp only
  split
  · split
    · rw [ask, ask, State.nextDraw_pending, settleHeads_pending, settleHead_pending]
    · rw [ask, State.nextDraw_pending, settleHeads_pending, settleHead_pending]
  · exact settleHead_pending p s

theorem takeLevel_pending (l : Line) (level : Level) (s : State) :
    (takeLevel l level s).pending = s.pending := by
  obtain ⟨u, moved, eq⟩ := takeLevel_eq l level s
  rw [eq, State.setAlerts_pending, moved.pending_eq, setLine_eq]
  rfl

theorem setLine_pending (s : State) (l : Line) (x : InputLine) :
    (setLine s l x).pending = s.pending := by
  rw [setLine_eq]
  rfl

theorem pinChanged_pending (l : Line) (level : Level) (s : State) :
    (pinChanged l level s).pending = s.pending := by
  unfold pinChanged
  dsimp only
  split
  · split <;> exact setLine_pending s l _
  · split
    · exact setLine_pending s l _
    · split
      · rw [takeLevel_pending, setLine_pending]
      · exact setLine_pending s l _

theorem exitSources_pending (s : State) : (exitSources s).pending = s.pending :=
  (endRequests_moved _ _ _).pending_eq

theorem exitShares_pending (s : State) : (exitShares s).pending = s.pending := by
  unfold exitShares
  dsimp only
  split <;> rfl

theorem exitLines_pending (s : State) : (exitLines s).pending = s.pending :=
  (lineEffects_moved s .x1 _).pending_eq.trans (lineEffects_moved s .x0 _).pending_eq

theorem setupExited_pending (s : State) : (setupExited s).pending = s.pending := by
  unfold setupExited
  refine (endSetup_eventKept _).pending.trans ?_
  show (exitCopies _).pending = _
  simp only [exitCopies, State.setPorts_pending, State.setCycle_pending, exitLines_pending,
    State.setPlanner_pending, exitShares_pending, exitSources_pending, State.setScanner_pending]
  rfl

theorem resetFrames_pending (p : PortId) (s : State) : (resetFrames p s).pending = s.pending := by
  have freed : SourcesMoved s ((portFrames s.pool.shares p).foldl
      (fun t i => setFrameState t i .free) s) :=
    SourcesMoved.foldl _ (fun t i => modFrame_moved t i _) _ s
  have discarded (l : List SlotId) (u : State) : SourcesMoved u (l.foldl sourceDiscarded u) :=
    SourcesMoved.foldl _ sourceDiscarded_moved l u
  exact (discarded _ _).pending_eq.trans freed.pending_eq

theorem Served.pending_eq {p : PortId} {s t : State} (h : Served p s t) :
    t.pending = s.pending := by
  cases h
  case written n data permitted =>
    obtain ⟨x, alerts, eq, _⟩ := storeWritten_eq (portOf s p).selector data s
    show (imageWritten _ data s).pending = s.pending
    rw [(imageWritten_moved _ data s).pending_eq, eq]
    rfl
  case entered =>
    obtain ⟨alerts, eq⟩ := setupEntered_blocks p s
    rw [eq]
    rfl
  case exited => exact setupExited_pending s
  case restored => exact (endSetupRestoring_eventKept s).pending
  case portReset =>
    rw [modPort_pending, emptyAlerts_pending, resetFrames_pending]
  all_goals rfl

/-- R156: no command touches the queue behind it. -/
theorem Effect.pending_eq {s t : State} (h : Effect s t) : t.pending = s.pending := by
  cases h
  case loaded =>
    refine (completeIfEmpty_eventKept _).pending.trans ?_
    show (announceLoss _ _).pending = _
    unfold announceLoss
    split <;> rfl
  case scanStarted => exact (completeIfEmpty_eventKept _).pending
  case readEnded => exact (readEnded_eventKept _ _ _).pending
  case periodStarted => exact (periodStart_eventKept false s).pending
  case planCompleted plan planning =>
    exact (beginMarkedLatePlan_eventKept _).pending.trans (applyPlan_eventKept plan s).pending
  case planDropped => exact (beginMarkedLatePlan_eventKept _).pending
  case intake p _ _ => exact takeThenPlan_pending p s
  case pinSet l level => exact setLine_pending s l _
  case pinChanged l level _ => exact pinChanged_pending l level s
  case settled l level => exact takeLevel_pending l level s
  case served p r t running body => exact body.pending_eq
  all_goals rfl

/-- Settles O2: every effect of a command keeps the queue. -/
theorem everyCommandCompletes : Obligations.EveryCommandCompletes := by
  intro c s
  obtain ⟨t, eq, effect⟩ := exec_effect c s
  exact ⟨t, eq, effect.pending_eq⟩

end Sys2Proof.Machine
end

section
/-! SUPPORT. The settings through every step (R168, R171, R175, R178): what each event leaves in the
store, and that no value out of range reaches the image or the entry snapshot. -/

namespace Sys2Proof.Machine

/-! ## The store through the events -/

/-- R175: the store once the entry snapshot has been written back. -/
def storeRestored (x : SettingsStore) : SettingsStore :=
  match x.setup with
  | none => x
  | some setup => { x with image := setup.entrySnapshot, setup := none }

theorem periodStartTaken_store (first : Bool) (s : State) :
    (periodStartTaken first s).store = s.store := by
  obtain ⟨_, _, _, _, store, _⟩ := periodStartTaken_periodKept first s
  exact store

@[simp] theorem followConditions_store (before s : State) :
    (followConditions before s).store = s.store := rfl

@[simp] theorem raiseOccurrence_store (k : AlertKind) (s : State) :
    (raiseOccurrence k s).store = s.store := rfl

theorem applyScan_store (scan : Scan) (s : State) : (applyScan scan s).store = s.store := rfl

theorem scanApplied_store (scan : Scan) (s : State) : (scanApplied scan s).store = s.store := by
  obtain ⟨overtemp, moved⟩ := neighboursTake_eq scan (applyScan scan s)
  obtain ⟨alerts, eq⟩ := scanApplied_eq scan s
  rw [eq, State.nextDraw_store, State.setAlerts_store, moved.store_eq, State.setSafety_store,
    applyScan_store]

theorem periodStartOfR90_store (s : State) : (periodStartOfR90 s).store = s.store := by
  unfold periodStartOfR90
  split
  · exact periodStartTaken_store false s
  · rfl

theorem firstPeriodStart_store (before s : State) :
    (firstPeriodStart before s).store = s.store := by
  unfold firstPeriodStart
  split
  · rfl
  · exact periodStartTaken_store true s

theorem setupLeft_store (s : State) : (setupLeft s).store = { s.store with setup := none } := rfl

/-- R174: the end of setup clears the holder and the snapshot. -/
theorem endSetup_store (s : State) : (endSetup s).store = { s.store with setup := none } := by
  rw [← setupLeft_store]
  unfold endSetup
  dsimp only
  split
  · exact periodStartOfR90_store _
  · split
    · rw [periodStartOfR90_store, scanApplied_store]
    · rw [firstPeriodStart_store, scanApplied_store, periodStartOfR90_store]

theorem settleMasks_store (old : Image) (s : State) : (settleMasks old s).store = s.store := by
  rw [settleMasks_eq]
  rfl

/-- R175: the end of setup with the entry snapshot written back. -/
theorem endSetupRestoring_store (s : State) :
    (endSetupRestoring s).store = storeRestored s.store := by
  unfold endSetupRestoring storeRestored
  cases s.store.setup with
  | none => rfl
  | some setup =>
    dsimp only
    rw [endSetup_store, settleMasks_store]
    rfl

/-- R160, R175: a period start restores the image where the setup holder falls silent. -/
theorem periodStart_store (first : Bool) (s : State) : (periodStart first s).store =
    if holderFallsSilent s then storeRestored s.store else s.store := by
  unfold periodStart
  dsimp only
  split
  · rw [endSetupRestoring_store, periodStartTaken_store]
  · exact periodStartTaken_store first s

/-- The store stands, or the entry snapshot has been written back over the image. -/
def storeStandsOrRestored (s t : State) : Prop :=
  t.store = s.store ∨ t.store = storeRestored s.store

theorem periodStart_standsOrRestored (first : Bool) (s : State) :
    storeStandsOrRestored s (periodStart first s) := by
  unfold storeStandsOrRestored
  rw [periodStart_store]
  split
  · exact .inr rfl
  · exact .inl rfl

theorem scanCompleted_standsOrRestored (scan : Scan) (s : State) :
    storeStandsOrRestored s (scanCompleted scan s) := by
  unfold scanCompleted
  dsimp only
  split
  · exact .inl (scanApplied_store scan s)
  · have := periodStart_standsOrRestored true (scanApplied scan s)
    unfold storeStandsOrRestored at this ⊢
    rwa [scanApplied_store] at this

theorem completeIfEmpty_standsOrRestored (s : State) :
    storeStandsOrRestored s (completeIfEmpty s) := by
  unfold completeIfEmpty
  split
  · exact .inl rfl
  · exact scanCompleted_standsOrRestored _ s

theorem readEnded_standsOrRestored (s : State) (scan : Scan) (r : ReadResult) :
    storeStandsOrRestored s (readEnded s scan r) := by
  unfold readEnded
  dsimp only
  split
  · exact scanCompleted_standsOrRestored _ s
  · exact .inl rfl

/-! ## The store through the other operations -/

theorem applyPlan_store (plan : Plan) (s : State) : (applyPlan plan s).store = s.store := by
  obtain ⟨u, moved, eq⟩ := applyPlan_eq plan s
  rw [eq]
  exact moved.store_eq

theorem beginMarkedLatePlan_store (s : State) : (beginMarkedLatePlan s).store = s.store := by
  rw [beginMarkedLatePlan_eq]
  rfl

theorem latePlanAsk_store (s : State) : (latePlanAsk s).store = s.store := by
  rw [latePlanAsk_eq]
  rfl

theorem settleHead_store (p : PortId) (s : State) : (settleHead p s).store = s.store := by
  unfold settleHead
  split
  · rfl
  · exact (settleFrame_moved _ p _).store_eq

theorem settleHeads_store (ports : List PortId) (s : State) :
    (ports.foldl (fun t q => settleHead q t) s).store = s.store := by
  induction ports generalizing s with
  | nil => rfl
  | cons q rest ih => exact (ih _).trans (settleHead_store q s)

theorem takeThenPlan_store (p : PortId) (s : State) : (takeThenPlan p s).store = s.store := by
  unfold takeThenPlan
  dsimp only
  split
  · split
    · rw [latePlanAsk_store, latePlanAsk_store, State.nextDraw_store, settleHeads_store,
        settleHead_store]
    · rw [latePlanAsk_store, State.nextDraw_store, settleHeads_store, settleHead_store]
  · exact settleHead_store p s

theorem setLine_store (s : State) (l : Line) (x : InputLine) : (setLine s l x).store = s.store := by
  rw [setLine_eq]
  rfl

theorem takeLevel_store (l : Line) (level : Level) (s : State) :
    (takeLevel l level s).store = s.store := by
  obtain ⟨u, moved, eq⟩ := takeLevel_eq l level s
  rw [eq, State.setAlerts_store, moved.store_eq, setLine_store]

theorem pinChanged_store (l : Line) (level : Level) (s : State) :
    (pinChanged l level s).store = s.store := by
  unfold pinChanged
  dsimp only
  split
  · split <;> exact setLine_store s l _
  · split
    · exact setLine_store s l _
    · split
      · rw [takeLevel_store, setLine_store]
      · exact setLine_store s l _

theorem exitSources_store (s : State) : (exitSources s).store = s.store :=
  (endRequests_moved _ _ _).store_eq

theorem exitShares_store (s : State) : (exitShares s).store = s.store := by
  unfold exitShares
  dsimp only
  split <;> rfl

theorem exitLines_store (s : State) : (exitLines s).store = s.store :=
  (lineEffects_moved s .x1 _).store_eq.trans (lineEffects_moved s .x0 _).store_eq

theorem exitCopies_store (s : State) : (exitCopies s).store = s.store := by
  simp only [exitCopies, State.setPorts_store, State.setCycle_store, exitLines_store,
    State.setPlanner_store, exitShares_store, exitSources_store, State.setScanner_store]

theorem setupExited_store (s : State) :
    (setupExited s).store = { s.store with setup := none } := by
  unfold setupExited
  rw [endSetup_store, followConditions_store, exitCopies_store]
  rfl

theorem setupEntered_store (p : PortId) (s : State) :
    (setupEntered p s).store = storeEntered p s := by
  obtain ⟨alerts, eq⟩ := setupEntered_blocks p s
  rw [eq]
  rfl

theorem resetFrames_store (p : PortId) (s : State) : (resetFrames p s).store = s.store := by
  have freed : SourcesMoved s ((portFrames s.pool.shares p).foldl
      (fun t i => setFrameState t i .free) s) :=
    SourcesMoved.foldl _ (fun t i => modFrame_moved t i _) _ s
  have discarded (l : List SlotId) (u : State) : SourcesMoved u (l.foldl sourceDiscarded u) :=
    SourcesMoved.foldl _ sourceDiscarded_moved l u
  exact (discarded _ _).store_eq.trans freed.store_eq

/-! ## The start-up load -/

/-- R178: the state that the load has brought before the first scan starts. -/
def settledLoad (s : State) : State :=
  let s1 := copiesLoaded (imageToLoad s.store.page) s
  announceLoss s.store.page (followConditions s1 (pinsRead s1))

theorem loadCompleted_eq (s : State) :
    loadCompleted s = completeIfEmpty (beginScan (settledLoad s)) := rfl

/-- R151: the announcement of the loss reaches the alerts alone. -/
theorem announceLoss_eq (page : Page) (s : State) :
    announceLoss page s = s.setAlerts (announceLoss page s).alerts := by
  unfold announceLoss
  split <;> rfl

/-- R178: the load's blocks, the alerts aside. -/
theorem settledLoad_eq (s : State) : ∃ alerts, settledLoad s =
    (pinsRead (copiesLoaded (imageToLoad s.store.page) s)).setAlerts alerts := by
  unfold settledLoad
  dsimp only
  rw [announceLoss_eq, followConditions_eq]
  exact ⟨_, rfl⟩

theorem settledLoad_store (s : State) :
    (settledLoad s).store = { s.store with image := imageToLoad s.store.page } := by
  obtain ⟨alerts, eq⟩ := settledLoad_eq s
  rw [eq]
  rfl

theorem loadCompleted_standsOrRestored (s : State) :
    storeStandsOrRestored (settledLoad s) (loadCompleted s) :=
  completeIfEmpty_standsOrRestored (beginScan (settledLoad s))

/-! ## Images in range -/

/-- R186: every factory default is a value that a write could store. -/
theorem factory_stored : ∀ f, f ∈ fieldTable → storedValue f.form f.factory = f.factory := by
  decide +kernel

theorem imageInRange_factoryImage : imageInRange factoryImage := by
  refine ⟨fun f mem => ?_, fun i below gap => ?_⟩
  · rw [fieldValue_factoryImage f mem, factory_stored f mem]
  · rw [factoryImage, imageByte_ofFn _ i below]
    simp [gap]

/-- R178: a loaded page is held to the ranges. -/
theorem imageInRange_loadedImage (page : Image) : imageInRange (loadedImage page) := by
  refine ⟨fun f mem => ?_, fun i below gap => imageByte_loadedImage_gap page i below gap⟩
  rw [fieldValue_loadedImage page f mem, storedValue_idempotent _ _ (fieldTable_fits f mem)]

theorem imageInRange_imageToLoad (page : Page) : imageInRange (imageToLoad page) := by
  unfold imageToLoad
  split
  · exact imageInRange_factoryImage
  · exact imageInRange_loadedImage _

/-- R168: a write stores values in range and leaves the rest. -/
theorem imageInRange_writtenImage {img : Image} (start : Nat) (data : List Byte)
    (h : imageInRange img) : imageInRange (writtenImage img start data) := by
  obtain ⟨stored, gaps⟩ := h
  refine ⟨fun f mem => ?_, fun i below gap => ?_⟩
  · rw [fieldValue_writtenImage img start data f mem]
    split
    · exact storedValue_idempotent _ _ (fieldTable_fits f mem)
    · exact stored f mem
  · rw [imageByte_writtenImage_gap img start data i below gap]
    exact gaps i below gap

/-- The settings of a store are in range. -/
def storeInRange (x : SettingsStore) : Prop :=
  imageInRange x.image ∧ ∀ setup, x.setup = some setup → imageInRange setup.entrySnapshot

theorem imagesInRange_iff (s : State) : ImagesInRange s ↔ storeInRange s.store := Iff.rfl

theorem storeInRange_left {x : SettingsStore} (h : storeInRange x) :
    storeInRange { x with setup := none } := ⟨h.1, fun _ none => nomatch none⟩

theorem storeInRange_restored {x : SettingsStore} (h : storeInRange x) :
    storeInRange (storeRestored x) := by
  unfold storeRestored
  cases inside : x.setup with
  | none => exact h
  | some setup => exact ⟨h.2 setup inside, fun _ none => nomatch none⟩

theorem storeInRange_standsOrRestored {s t : State} (h : storeStandsOrRestored s t)
    (range : storeInRange s.store) : storeInRange t.store := by
  rcases h with h | h <;> rw [h]
  · exact range
  · exact storeInRange_restored range

theorem Served.imagesInRange {p : PortId} {s t : State} (h : Served p s t)
    (range : storeInRange s.store) : storeInRange t.store := by
  cases h
  case written n data permitted =>
    show storeInRange (imageWritten _ data s).store
    rw [imageWritten_store]
    exact ⟨imageInRange_writtenImage _ data range.1, range.2⟩
  case entered outside =>
    rw [setupEntered_store]
    refine ⟨range.1, fun setup inside => ?_⟩
    cases inside
    exact range.1
  case exited setup inside passes =>
    rw [setupExited_store]
    exact storeInRange_left range
  case restored =>
    rw [endSetupRestoring_store]
    exact storeInRange_restored range
  case portReset =>
    rw [modPort_store, emptyAlerts_store, resetFrames_store]
    exact range
  all_goals exact range

theorem Effect.imagesInRange {s t : State} (h : Effect s t) (range : storeInRange s.store) :
    storeInRange t.store := by
  cases h
  case reset => exact ⟨imageInRange_factoryImage, fun _ none => nomatch none⟩
  case loaded =>
    refine storeInRange_standsOrRestored (loadCompleted_standsOrRestored s) ?_
    rw [settledLoad_store]
    exact ⟨imageInRange_imageToLoad _, range.2⟩
  case scanStarted =>
    exact storeInRange_standsOrRestored (completeIfEmpty_standsOrRestored (beginScan s)) range
  case readEnded => exact storeInRange_standsOrRestored (readEnded_standsOrRestored s _ _) range
  case periodStarted =>
    exact storeInRange_standsOrRestored (periodStart_standsOrRestored false s) range
  case planCompleted plan planning =>
    rw [beginMarkedLatePlan_store]
    show storeInRange (applyPlan plan s).store
    rw [applyPlan_store]
    exact range
  case planDropped =>
    rw [beginMarkedLatePlan_store]
    exact range
  case intake p _ _ =>
    rw [takeThenPlan_store]
    exact range
  case pinSet =>
    rw [setLine_store]
    exact range
  case pinChanged =>
    rw [pinChanged_store]
    exact range
  case settled =>
    rw [takeLevel_store]
    exact range
  case served p r t running body => exact body.imagesInRange range
  all_goals exact range

/-- Settles O60: of the operations only a write, a load and a reset bring values into the image, each in
range, and the entry snapshot is a copy of it. -/
theorem stepsKeepImagesInRange : Obligations.StepsKeepImagesInRange := fun _ _ range next =>
  step_keeps (Inv := ImagesInRange) (fun _ _ h => h) (fun _ _ h effect => effect.imagesInRange h)
    range next

end Sys2Proof.Machine
end

section
/-! SUPPORT. The planner through every step (R88 to R92, R104 to R110): what a period start, a scan
completion and the end of setup leave in it, and that the part keeps it in order. -/

namespace Sys2Proof.Machine

/-! ## The period start -/

/-- R88, R93: a period start as every block but the planner has taken it. -/
def periodCounted (first : Bool) (s : State) : State :=
  countSilence (evaluateCycle (expireRequests
    (endGrants .portSilent (countedState first s) (silencedFirst (countedState first s)))))

/-- R95: the state on which a period start's plan is formed. -/
def beforePlan (first : Bool) (s : State) : State := takeSnapshot (periodCounted first s)

theorem periodStartTaken_eq (first : Bool) (s : State) :
    periodStartTaken first s = (planAtPeriodStart (beforePlan first s)).nextDraw := rfl

theorem evaluateCycle_planner (s : State) : (evaluateCycle s).planner = s.planner := by
  rw [evaluateCycle_eq]
  rfl

theorem countSilence_planner (s : State) : (countSilence s).planner = s.planner := by
  obtain ⟨u, moved, eq⟩ := countSilence_eq s
  rw [eq, State.setAlerts_planner, State.setPorts_planner, moved.planner_eq]

theorem countedState_planner (first : Bool) (s : State) :
    (countedState first s).planner = (advancePeriod first s).planner :=
  (ageRequests_moved _).planner_eq.trans (countSources_moved _).planner_eq

theorem periodCounted_planner (first : Bool) (s : State) :
    (periodCounted first s).planner = (advancePeriod first s).planner := by
  unfold periodCounted
  rw [countSilence_planner, evaluateCycle_planner, (expireRequests_moved _).planner_eq,
    (endGrants_moved _ _ _).planner_eq, countedState_planner]

theorem periodCounted_periodKept (first : Bool) (s : State) :
    PeriodKept s (periodCounted first s) :=
  (countedState_kept first s).trans ((endGrants_moved _ _ _).periodKept.trans
    ((expireRequests_moved _).periodKept.trans
      ((evaluateCycle_periodKept _).trans (countSilence_periodKept _))))

theorem beforePlan_periodKept (first : Bool) (s : State) : PeriodKept s (beforePlan first s) :=
  (periodCounted_periodKept first s).trans (takeSnapshot_periodKept _)

theorem periodCounted_model (first : Bool) (s : State) :
    (periodCounted first s).model = s.model := by
  obtain ⟨_, _, model, _⟩ := periodCounted_periodKept first s
  exact model

theorem periodStartTaken_model (first : Bool) (s : State) :
    (periodStartTaken first s).model = s.model := by
  obtain ⟨_, _, model, _⟩ := periodStartTaken_periodKept first s
  exact model

theorem beforePlan_store (first : Bool) (s : State) : (beforePlan first s).store = s.store := by
  obtain ⟨_, _, _, _, store, _⟩ := beforePlan_periodKept first s
  exact store

theorem inSetup_beforePlan (first : Bool) (s : State) :
    inSetup (beforePlan first s) = inSetup s := by
  simp [inSetup, beforePlan_store]

/-- R88, R89, R93: the planner's timer and snapshot at a period start. -/
theorem beforePlan_planner (first : Bool) (s : State) : (beforePlan first s).planner =
    { s.planner with
      timerRunning := true
      period := if first then 0 else s.planner.period + 1
      secondsRemaining := s.planner.periodLength
      snapshot := { layers := s.model.layers, model := s.model.state
                    cycle := (periodCounted first s).cycle.state } } := by
  show ({ (periodCounted first s).planner with snapshot := _ } : Planner) = _
  rw [periodCounted_planner, periodCounted_model]
  rfl

/-- R92, R95: in SETUP a period start clears the mark and begins no plan. -/
theorem periodStartTaken_planner_setup (first : Bool) {s : State} (inside : inSetup s = true) :
    (periodStartTaken first s).planner =
      { (beforePlan first s).planner with lateMark := false } := by
  rw [periodStartTaken_eq]
  simp [planAtPeriodStart, inSetup_beforePlan, inside]

/-- R92, R95: outside SETUP a period start clears the mark and begins a full plan. -/
theorem periodStartTaken_planner_outside (first : Bool) {s : State} (outside : inSetup s = false) :
    (periodStartTaken first s).planner =
      { (beforePlan first s).planner with
        state := .planningFull (formPlan .full (beforePlan first s)), lateMark := false } := by
  rw [periodStartTaken_eq]
  simp [planAtPeriodStart, inSetup_beforePlan, outside, beginFullPlan]

theorem periodStartTaken_timer (first : Bool) (s : State) :
    (periodStartTaken first s).planner.timerRunning = true := by
  cases inside : inSetup s
  · rw [periodStartTaken_planner_outside first inside, beforePlan_planner]
  · rw [periodStartTaken_planner_setup first inside, beforePlan_planner]

/-! ## The other events -/

theorem neighboursTake_planner (scan : Scan) (s : State) :
    (neighboursTake scan s).planner = s.planner := by
  obtain ⟨overtemp, moved⟩ := neighboursTake_eq scan s
  exact moved.planner_eq

theorem neighboursTake_model (scan : Scan) (s : State) :
    (neighboursTake scan s).model = s.model := by
  obtain ⟨overtemp, moved⟩ := neighboursTake_eq scan s
  exact moved.model_eq

theorem scanApplied_planner (scan : Scan) (s : State) :
    (scanApplied scan s).planner = s.planner := by
  obtain ⟨alerts, eq⟩ := scanApplied_eq scan s
  rw [eq, State.nextDraw_planner, State.setAlerts_planner, neighboursTake_planner]
  rfl

/-- R7: the model after a completion. -/
theorem scanApplied_model (scan : Scan) (s : State) : (scanApplied scan s).model =
    (applyScan scan s).model := by
  obtain ⟨alerts, eq⟩ := scanApplied_eq scan s
  rw [eq, State.nextDraw_model, State.setAlerts_model, neighboursTake_model]

theorem scanApplied_scanCompleted (scan : Scan) (s : State) :
    (scanApplied scan s).model.scanCompleted = true := by
  rw [scanApplied_model]
  rfl

theorem inSetup_scanApplied (scan : Scan) (s : State) :
    inSetup (scanApplied scan s) = inSetup s := by
  simp [inSetup, scanApplied_store]

theorem setupLeft_planner (s : State) : (setupLeft s).planner = { s.planner with state := .idle } :=
  rfl

theorem setupLeft_model (s : State) : (setupLeft s).model = s.model := rfl

theorem inSetup_setupLeft (s : State) : inSetup (setupLeft s) = false := rfl

/-! ## In order -/

/-- R91, R107, R109: the planner is SUSPENDED exactly in SETUP, its mark is clear outside PLANNING, and a
late plan lists no revocation. -/
def PlannerFormed (s : State) : Prop :=
  (s.planner.state = .suspended ↔ inSetup s = true) ∧
    (planInFlight s = false → s.planner.lateMark = false) ∧
    ∀ plan, s.planner.state = .planningLate plan → plan.revocations = []

/-- R89: the timer runs exactly from the first scan completion on. -/
def TimerFollows (s : State) : Prop := s.planner.timerRunning = s.model.scanCompleted

theorem plannerInOrder_iff (s : State) : PlannerInOrder s ↔
    PlannerFormed s ∧ TimerFollows s ∧ (isRunning s = false →
      inSetup s = false ∧ s.scanner.scan = none ∧ s.model.scanCompleted = false) := by
  simp only [PlannerInOrder, PlannerFormed, TimerFollows, and_assoc]

/-- Both depend on the planner, on whether the part is in SETUP and on the completion mark alone. -/
theorem PlannerFormed.congr {s t : State} (h : PlannerFormed s) (planner : t.planner = s.planner)
    (setup : inSetup t = inSetup s) : PlannerFormed t := by
  simpa only [PlannerFormed, planInFlight, planner, setup] using h

theorem TimerFollows.congr {s t : State} (h : TimerFollows s) (planner : t.planner = s.planner)
    (completed : t.model.scanCompleted = s.model.scanCompleted) : TimerFollows t := by
  simpa only [TimerFollows, planner, completed] using h

theorem PlannerFormed.lateMark_of_setup {s : State} (h : PlannerFormed s)
    (inside : inSetup s = true) : s.planner.lateMark = false := by
  obtain ⟨suspended, clear, _⟩ := h
  refine clear ?_
  simp [planInFlight, suspended.mpr inside]

theorem PlannerFormed.periodStartTaken {s : State} (h : PlannerFormed s) (first : Bool) :
    PlannerFormed (periodStartTaken first s) := by
  have setup : inSetup (Machine.periodStartTaken first s) = inSetup s := by
    simp [inSetup, periodStartTaken_store]
  obtain ⟨suspended, _, late⟩ := h
  cases inside : inSetup s
  · simp [PlannerFormed, planInFlight, setup, inside, periodStartTaken_planner_outside]
  · have stands := suspended.mpr inside
    simp [PlannerFormed, setup, inside, periodStartTaken_planner_setup, beforePlan_planner, stands]

theorem PlannerFormed.scanApplied {s : State} (h : PlannerFormed s) (scan : Scan) :
    PlannerFormed (scanApplied scan s) :=
  h.congr (scanApplied_planner scan s) (inSetup_scanApplied scan s)

theorem PlannerFormed.setupLeft {s : State} (h : PlannerFormed s) (inside : inSetup s = true) :
    PlannerFormed (setupLeft s) := by
  simp [PlannerFormed, planInFlight, setupLeft_planner, inSetup_setupLeft,
    h.lateMark_of_setup inside]

theorem PlannerFormed.periodStartOfR90 {s : State} (h : PlannerFormed s) :
    PlannerFormed (periodStartOfR90 s) := by
  unfold Machine.periodStartOfR90
  split
  · exact h.periodStartTaken false
  · exact h

theorem PlannerFormed.firstPeriodStart {s : State} (h : PlannerFormed s) (before : State) :
    PlannerFormed (firstPeriodStart before s) := by
  unfold Machine.firstPeriodStart
  split
  · exact h
  · exact h.periodStartTaken true

theorem TimerFollows.periodStartTaken {s : State} (completed : s.model.scanCompleted = true)
    (first : Bool) : TimerFollows (periodStartTaken first s) := by
  rw [TimerFollows, periodStartTaken_timer, periodStartTaken_model, completed]

theorem TimerFollows.periodStartOfR90 {s : State} (h : TimerFollows s) :
    TimerFollows (periodStartOfR90 s) := by
  unfold Machine.periodStartOfR90
  split
  · rename_i runs
    exact .periodStartTaken (h.symm.trans runs) false
  · exact h

/-- R89: after the first completion the timer starts, after a later one it runs already. -/
theorem TimerFollows.firstPeriodStart {s : State} (h : TimerFollows s) (scan : Scan) :
    TimerFollows (firstPeriodStart s (scanApplied scan s)) := by
  unfold Machine.firstPeriodStart
  split
  · rename_i completed
    rw [TimerFollows, scanApplied_planner, scanApplied_scanCompleted, h, completed]
  · exact .periodStartTaken (scanApplied_scanCompleted scan s) true

/-- R90, R174: the end of setup keeps the planner in order. -/
theorem PlannerFormed.endSetup {s : State} (h : PlannerFormed s) (inside : inSetup s = true) :
    PlannerFormed (endSetup s) := by
  have left := h.setupLeft inside
  unfold Machine.endSetup
  dsimp only
  split
  · exact left.periodStartOfR90
  · split
    · exact (left.scanApplied _).periodStartOfR90
    · exact (left.periodStartOfR90.scanApplied _).firstPeriodStart _

theorem TimerFollows.endSetup {s : State} (h : TimerFollows s) : TimerFollows (endSetup s) := by
  have left : TimerFollows (setupLeft s) := h
  unfold Machine.endSetup
  dsimp only
  split
  · exact left.periodStartOfR90
  · rename_i scan _
    split
    · rename_i runs
      simp only [Bool.and_eq_true] at runs
      have applied : TimerFollows (scanApplied scan (setupLeft s)) := by
        rw [TimerFollows, scanApplied_planner, scanApplied_scanCompleted, runs.1.1]
      exact applied.periodStartOfR90
    · exact left.periodStartOfR90.firstPeriodStart scan

theorem inSetup_iff (s : State) : inSetup s = true ↔ ∃ setup, s.store.setup = some setup := by
  simp [inSetup, Option.isSome_iff_exists]

theorem settleMasks_planner (old : Image) (s : State) :
    (settleMasks old s).planner = s.planner := by
  rw [settleMasks_eq]
  rfl

theorem settleMasks_model (old : Image) (s : State) : (settleMasks old s).model = s.model := by
  rw [settleMasks_eq]
  rfl

/-- R175: the state in which a restored setup ends. -/
def imageRestored (setup : Setup) (s : State) : State :=
  settleMasks s.store.image (s.setStore { s.store with image := setup.entrySnapshot })

theorem endSetupRestoring_of_setup {s : State} {setup : Setup}
    (inside : s.store.setup = some setup) :
    endSetupRestoring s = endSetup (imageRestored setup s) := by
  unfold endSetupRestoring
  rw [inside]
  rfl

theorem endSetupRestoring_outside {s : State} (outside : s.store.setup = none) :
    endSetupRestoring s = s := by
  unfold endSetupRestoring
  rw [outside]

theorem imageRestored_eq (setup : Setup) (s : State) : ∃ alerts, imageRestored setup s =
    (s.setStore { s.store with image := setup.entrySnapshot }).setAlerts alerts :=
  ⟨_, settleMasks_eq _ _⟩

theorem PlannerFormed.endSetupRestoring {s : State} (h : PlannerFormed s) :
    PlannerFormed (endSetupRestoring s) := by
  cases inside : s.store.setup with
  | none => rwa [endSetupRestoring_outside inside]
  | some setup =>
    obtain ⟨alerts, eq⟩ := imageRestored_eq setup s
    rw [endSetupRestoring_of_setup inside, eq]
    exact PlannerFormed.endSetup (s := _) h ((inSetup_iff s).mpr ⟨setup, inside⟩)

theorem TimerFollows.endSetupRestoring {s : State} (h : TimerFollows s) :
    TimerFollows (endSetupRestoring s) := by
  cases inside : s.store.setup with
  | none => rwa [endSetupRestoring_outside inside]
  | some setup =>
    obtain ⟨alerts, eq⟩ := imageRestored_eq setup s
    rw [endSetupRestoring_of_setup inside, eq]
    exact TimerFollows.endSetup (s := _) h

theorem PlannerFormed.periodStart {s : State} (h : PlannerFormed s) (first : Bool) :
    PlannerFormed (periodStart first s) := by
  unfold Machine.periodStart
  dsimp only
  split
  · exact (h.periodStartTaken first).endSetupRestoring
  · exact h.periodStartTaken first

theorem TimerFollows.periodStart {s : State} (completed : s.model.scanCompleted = true)
    (first : Bool) : TimerFollows (periodStart first s) := by
  unfold Machine.periodStart
  dsimp only
  split
  · exact (TimerFollows.periodStartTaken completed first).endSetupRestoring
  · exact .periodStartTaken completed first

theorem PlannerFormed.scanCompleted {s : State} (h : PlannerFormed s) (scan : Scan) :
    PlannerFormed (scanCompleted scan s) := by
  unfold Machine.scanCompleted
  dsimp only
  split
  · exact h.scanApplied scan
  · exact (h.scanApplied scan).periodStart true

theorem TimerFollows.scanCompleted {s : State} (h : TimerFollows s) (scan : Scan) :
    TimerFollows (scanCompleted scan s) := by
  unfold Machine.scanCompleted
  dsimp only
  split
  · rename_i completed
    rw [TimerFollows, scanApplied_planner, scanApplied_scanCompleted, h, completed]
  · exact .periodStart (scanApplied_scanCompleted scan s) true

/-- Both at once, for the events that keep both. -/
def PlannerKept (s : State) : Prop := PlannerFormed s ∧ TimerFollows s

theorem PlannerKept.scanCompleted {s : State} (h : PlannerKept s) (scan : Scan) :
    PlannerKept (scanCompleted scan s) := ⟨h.1.scanCompleted scan, h.2.scanCompleted scan⟩

theorem PlannerKept.completeIfEmpty {s : State} (h : PlannerKept s) :
    PlannerKept (completeIfEmpty s) := by
  unfold Machine.completeIfEmpty
  split
  · exact h
  · exact h.scanCompleted _

theorem PlannerKept.readEnded {s : State} (h : PlannerKept s) (scan : Scan) (r : ReadResult) :
    PlannerKept (readEnded s scan r) := by
  unfold Machine.readEnded
  dsimp only
  split
  · exact h.scanCompleted _
  · exact h

/-! ## Plans -/

/-- R109: a late plan lists no revocation. -/
theorem formPlan_late_revocations (s : State) : (formPlan .late s).revocations = [] := by
  unfold formPlan
  dsimp only
  split <;> rfl

/-- R108: outside SETUP the beginning of a marked late plan leaves the planner in order. -/
theorem PlannerFormed.beginMarkedLatePlan {s : State} (idle : s.planner.state = .idle)
    (outside : inSetup s = false) : PlannerFormed (beginMarkedLatePlan s) := by
  unfold Machine.beginMarkedLatePlan
  have setup : s.store.setup = none := by simpa [inSetup] using outside
  split
  · split
    · simp [PlannerFormed, planInFlight, inSetup, setup, formPlan_late_revocations]
    · simp [PlannerFormed, planInFlight, inSetup, setup, idle]
  · rename_i clear
    simp [PlannerFormed, planInFlight, outside, idle, clear]

theorem applyPlan_planner (plan : Plan) (s : State) :
    (applyPlan plan s).planner = { s.planner with published := plan.figures } := by
  obtain ⟨u, moved, eq⟩ := applyPlan_eq plan s
  rw [eq, ← moved.planner_eq]
  rfl

theorem applyPlan_model (plan : Plan) (s : State) : (applyPlan plan s).model = s.model := by
  obtain ⟨u, moved, eq⟩ := applyPlan_eq plan s
  rw [eq]
  exact moved.model_eq

theorem beginMarkedLatePlan_model (s : State) : (beginMarkedLatePlan s).model = s.model := by
  rw [beginMarkedLatePlan_eq]
  rfl

theorem beginMarkedLatePlan_timer (s : State) :
    (beginMarkedLatePlan s).planner.timerRunning = s.planner.timerRunning := by
  unfold beginMarkedLatePlan
  split
  · split <;> rfl
  · rfl

/-- R92, R107: an ask keeps the planner in order, whichever state it finds. -/
theorem PlannerKept.latePlanAsk {s : State} (h : PlannerKept s) : PlannerKept (latePlanAsk s) := by
  obtain ⟨formed, timer⟩ := h
  unfold Machine.latePlanAsk
  split
  · rename_i idle
    have outside : inSetup s = false := by
      cases inside : inSetup s
      · rfl
      · have := formed.1.mpr inside
        rw [idle] at this
        cases this
    refine ⟨.beginMarkedLatePlan idle outside, ?_⟩
    rw [TimerFollows, beginMarkedLatePlan_timer, beginMarkedLatePlan_model]
    exact timer
  · rename_i planning
    refine ⟨⟨formed.1, fun none => ?_, formed.2.2⟩, timer⟩
    simp [planInFlight, markLate, planning] at none
  · rename_i planning
    refine ⟨⟨formed.1, fun none => ?_, formed.2.2⟩, timer⟩
    simp [planInFlight, markLate, planning] at none
  · exact ⟨formed, timer⟩

theorem PlannerKept.congr {s t : State} (h : PlannerKept s) (planner : t.planner = s.planner)
    (setup : inSetup t = inSetup s) (completed : t.model.scanCompleted = s.model.scanCompleted) :
    PlannerKept t := ⟨h.1.congr planner setup, h.2.congr planner completed⟩

/-- The sources and the frames aside, nothing has moved. -/
theorem PlannerKept.moved {s t : State} (h : PlannerKept s) (moved : SourcesMoved s t) :
    PlannerKept t :=
  h.congr moved.planner_eq moved.inSetup_eq (by rw [moved.model_eq])

theorem PlannerKept.settleHead {s : State} (h : PlannerKept s) (p : PortId) :
    PlannerKept (settleHead p s) := by
  unfold Machine.settleHead
  split
  · exact h
  · exact PlannerKept.moved (s := setPostList s p _) h (settleFrame_moved _ p _)

theorem PlannerKept.settleHeads (ports : List PortId) {s : State} (h : PlannerKept s) :
    PlannerKept (ports.foldl (fun t q => Machine.settleHead q t) s) := by
  induction ports generalizing s with
  | nil => exact h
  | cons q rest ih => exact ih (h.settleHead q)

theorem PlannerKept.takeThenPlan {s : State} (h : PlannerKept s) (p : PortId) :
    PlannerKept (takeThenPlan p s) := by
  have begun : PlannerKept (Machine.latePlanAsk
      ((takenBeforePlan (Machine.settleHead p s) p).foldl (fun t q => Machine.settleHead q t)
        (Machine.settleHead p s)).nextDraw) :=
    PlannerKept.latePlanAsk (s := State.nextDraw _) ((h.settleHead p).settleHeads _)
  unfold Machine.takeThenPlan
  dsimp only
  split
  · split
    · exact begun.latePlanAsk
    · exact begun
  · exact h.settleHead p

/-- R104, R110: a completed plan leaves a planner in order. -/
theorem PlannerKept.planEnds {s : State} (h : PlannerKept s)
    (planning : s.planner.state ≠ .suspended) :
    PlannerKept (Machine.beginMarkedLatePlan (planEnded s)) := by
  have outside : inSetup s = false := by
    cases inside : inSetup s
    · rfl
    · exact absurd (h.1.1.mpr inside) planning
  refine ⟨.beginMarkedLatePlan rfl outside, ?_⟩
  rw [TimerFollows, beginMarkedLatePlan_timer, beginMarkedLatePlan_model]
  exact h.2

theorem PlannerKept.applyPlan {s : State} (h : PlannerKept s) (plan : Plan) :
    PlannerKept (applyPlan plan s) := by
  have setup : inSetup (Machine.applyPlan plan s) = inSetup s := by simp [inSetup, applyPlan_store]
  obtain ⟨formed, timer⟩ := h
  refine ⟨?_, ?_⟩
  · simpa only [PlannerFormed, planInFlight, applyPlan_planner, setup] using formed
  · simpa only [TimerFollows, applyPlan_planner, applyPlan_model] using timer

/-! ## Setup -/

theorem setupEntered_planner (p : PortId) (s : State) :
    (setupEntered p s).planner = plannerSuspended s := by
  obtain ⟨alerts, eq⟩ := setupEntered_blocks p s
  rw [eq]
  rfl

theorem setupEntered_model (p : PortId) (s : State) : (setupEntered p s).model = s.model := by
  obtain ⟨alerts, eq⟩ := setupEntered_blocks p s
  rw [eq]
  rfl

theorem PlannerKept.setupEntered {s : State} (h : PlannerKept s) (p : PortId) :
    PlannerKept (setupEntered p s) := by
  refine ⟨?_, ?_⟩
  · simp [PlannerFormed, planInFlight, inSetup, setupEntered_store, setupEntered_planner,
      storeEntered, plannerSuspended]
  · rw [TimerFollows, setupEntered_planner, setupEntered_model]
    exact h.2

/-- R174: the copies leave the planner but its period length and threshold. -/
theorem exitCopies_planner (s : State) : (exitCopies s).planner =
    { s.planner with periodLength := periodLength s.store.image
                     lateThreshold := lateThreshold s.store.image } := by
  have sources (x : State) : (exitSources x).planner = x.planner :=
    (endRequests_moved _ _ _).planner_eq
  have shares (x : State) : (exitShares x).planner = x.planner := by
    unfold exitShares
    dsimp only
    split <;> rfl
  have lines (x : State) : (exitLines x).planner = x.planner :=
    (lineEffects_moved x .x1 _).planner_eq.trans (lineEffects_moved x .x0 _).planner_eq
  simp only [exitCopies, State.setPorts_planner, State.setCycle_planner, lines,
    State.setPlanner_planner, shares, sources, State.setScanner_planner]

theorem exitCopies_model (s : State) : (exitCopies s).model = s.model := by
  have sources (x : State) : (exitSources x).model = x.model := (endRequests_moved _ _ _).model_eq
  have shares (x : State) : (exitShares x).model = x.model := by
    unfold exitShares
    dsimp only
    split <;> rfl
  have lines (x : State) : (exitLines x).model = x.model :=
    (lineEffects_moved x .x1 _).model_eq.trans (lineEffects_moved x .x0 _).model_eq
  simp only [exitCopies, State.setPorts_model, State.setCycle_model, lines, State.setPlanner_model,
    shares, sources, State.setScanner_model]

/-- R147, R174: the state in which an accepted exit ends setup. -/
def exitTaken (s : State) : State :=
  let s1 := changeModes (copiedModes s.store.image) s
  followConditions s1 (exitCopies s1)

theorem setupExited_eq (s : State) : setupExited s = endSetup (exitTaken s) := rfl

theorem exitTaken_store (s : State) : (exitTaken s).store = s.store :=
  exitCopies_store (changeModes (copiedModes s.store.image) s)

theorem exitTaken_planner (s : State) : (exitTaken s).planner =
    { s.planner with periodLength := periodLength s.store.image
                     lateThreshold := lateThreshold s.store.image } :=
  exitCopies_planner (changeModes (copiedModes s.store.image) s)

theorem exitTaken_model (s : State) : (exitTaken s).model = s.model :=
  exitCopies_model (changeModes (copiedModes s.store.image) s)

theorem inSetup_exitTaken (s : State) : inSetup (exitTaken s) = inSetup s := by
  simp [inSetup, exitTaken_store]

theorem PlannerKept.setupExited {s : State} (h : PlannerKept s) (inside : inSetup s = true) :
    PlannerKept (setupExited s) := by
  rw [setupExited_eq]
  obtain ⟨formed, timer⟩ := h
  have taken : PlannerFormed (exitTaken s) := by
    simpa only [PlannerFormed, planInFlight, exitTaken_planner, inSetup_exitTaken] using formed
  have follows : TimerFollows (exitTaken s) := by
    simpa only [TimerFollows, exitTaken_planner, exitTaken_model] using timer
  exact ⟨taken.endSetup ((inSetup_exitTaken s).trans inside), follows.endSetup⟩

/-! ## Every step -/

theorem imageWritten_planner (start : Nat) (data : List Byte) (s : State) :
    (imageWritten start data s).planner = s.planner := by
  obtain ⟨x, alerts, eq, _⟩ := storeWritten_eq start data s
  rw [(imageWritten_moved start data s).planner_eq, eq]
  rfl

theorem imageWritten_model (start : Nat) (data : List Byte) (s : State) :
    (imageWritten start data s).model = s.model := by
  obtain ⟨x, alerts, eq, _⟩ := storeWritten_eq start data s
  rw [(imageWritten_moved start data s).model_eq, eq]
  rfl

/-- R84: PORT-RESET frees the port's frames before it discards their requests. -/
def framesFreed (p : PortId) (s : State) : State :=
  (portFrames s.pool.shares p).foldl (fun t i => setFrameState t i .free) s

theorem framesFreed_moved (p : PortId) (s : State) : SourcesMoved s (framesFreed p s) :=
  SourcesMoved.foldl _ (fun t i => modFrame_moved t i _) _ s

/-- R84: the frames freed and the sources of their requests discarded. -/
def requestsDiscarded (p : PortId) (s : State) : State :=
  ((portFrames s.pool.shares p).filterMap (heldSlot s)).foldl sourceDiscarded (framesFreed p s)

theorem requestsDiscarded_moved (p : PortId) (s : State) :
    SourcesMoved s (requestsDiscarded p s) :=
  (framesFreed_moved p s).trans (SourcesMoved.foldl _ sourceDiscarded_moved _ _)

theorem resetFrames_eq (p : PortId) (s : State) : resetFrames p s =
    setFreeList (setReplyQueue (setPostList (requestsDiscarded p s) p []) p []) p
      (portFrames s.pool.shares p) := rfl

/-- R84: the frames and the sources are all that a port's reset of frames changes. -/
theorem resetFrames_blocks (p : PortId) (s : State) : ∃ pool table,
    resetFrames p s = (s.setPool pool).setTable table ∧ table.records = s.table.records := by
  obtain ⟨eq, records, _⟩ := requestsDiscarded_moved p s
  rw [resetFrames_eq, eq]
  exact ⟨_, _, rfl, records⟩

theorem Served.plannerKept {p : PortId} {s t : State} (h : Served p s t) (kept : PlannerKept s) :
    PlannerKept t := by
  cases h
  case written n data permitted =>
    refine kept.congr (imageWritten_planner _ data s) ?_
      (congrArg LayerModel.scanCompleted (imageWritten_model _ data s))
    show inSetup (imageWritten _ data s) = _
    simp [inSetup, imageWritten_store]
  case entered => exact kept.setupEntered p
  case exited setup inside passes =>
    exact kept.setupExited ((inSetup_iff s).mpr ⟨setup, inside⟩)
  case restored => exact ⟨kept.1.endSetupRestoring, kept.2.endSetupRestoring⟩
  case portReset =>
    obtain ⟨pool, table, eq, _⟩ := resetFrames_blocks p s
    rw [eq]
    exact kept
  all_goals exact kept

theorem pinChanged_cases (l : Line) (level : Level) (s : State) :
    (∃ x, pinChanged l level s = setLine s l x) ∨
      ∃ x, pinChanged l level s = takeLevel l level (setLine s l x) := by
  unfold pinChanged
  dsimp only
  split
  · split <;> exact .inl ⟨_, rfl⟩
  · split
    · exact .inl ⟨_, rfl⟩
    · split
      · exact .inr ⟨_, rfl⟩
      · exact .inl ⟨_, rfl⟩

theorem PlannerKept.setLine {s : State} (h : PlannerKept s) (l : Line) (x : InputLine) :
    PlannerKept (setLine s l x) := by
  rw [setLine_eq]
  exact h

theorem PlannerKept.takeLevel {s : State} (h : PlannerKept s) (l : Line) (level : Level) :
    PlannerKept (takeLevel l level s) := by
  obtain ⟨u, moved, eq⟩ := takeLevel_eq l level s
  rw [eq]
  have taken := (h.setLine l _).moved moved
  exact taken

/-- R91, R109: what every effect keeps of a part whose planner is in order. -/
theorem Effect.plannerKept {s t : State} (h : Effect s t) (kept : PlannerKept s)
    (halted : isRunning s = false → inSetup s = false ∧ s.model.scanCompleted = false) :
    PlannerKept t := by
  cases h
  case reset => exact ⟨by simp [PlannerFormed, planInFlight, inSetup, resetBlocks, State.reset,
      freshPlanner], rfl⟩
  case loaded stopped =>
    obtain ⟨outside, first⟩ := halted stopped
    have setup : s.store.setup = none := by simpa [inSetup] using outside
    obtain ⟨alerts, eq⟩ := settledLoad_eq s
    rw [loadCompleted_eq, eq]
    refine PlannerKept.completeIfEmpty ⟨?_, ?_⟩
    · show PlannerFormed (copiesLoaded (imageToLoad s.store.page) s)
      simp [PlannerFormed, planInFlight, inSetup, copiesLoaded, freshPlanner, setup]
    · exact first.symm
  case scanStarted => exact PlannerKept.completeIfEmpty (s := beginScan s) kept
  case readEnded => exact kept.readEnded _ _
  case periodStarted running timer =>
    exact ⟨kept.1.periodStart false, .periodStart (kept.2.symm.trans timer) false⟩
  case planCompleted plan planning =>
    refine (kept.applyPlan plan).planEnds ?_
    rw [applyPlan_planner]
    rcases planning with planning | planning <;> simp [planning]
  case planDropped plan planning =>
    refine kept.planEnds ?_
    simp [planning]
  case intake p _ _ => exact kept.takeThenPlan p
  case pinSet l level => exact kept.setLine l _
  case pinChanged l level _ =>
    rcases pinChanged_cases l level s with ⟨x, eq⟩ | ⟨x, eq⟩ <;> rw [eq]
    · exact kept.setLine l x
    · exact (kept.setLine l x).takeLevel l level
  case settled l level => exact kept.takeLevel l level
  case served p r t running body => exact body.plannerKept (s := heard p s) kept
  all_goals exact kept

/-- R181: a part that does not run has no setup, no scan in flight and none completed. -/
def HaltedClear (s : State) : Prop :=
  isRunning s = false → inSetup s = false ∧ s.scanner.scan = none ∧ s.model.scanCompleted = false

theorem HaltedClear.of_running {s t : State} (running : isRunning s = true)
    (part : isRunning t = isRunning s) : HaltedClear t := fun halted => by
  rw [part, running] at halted
  cases halted

theorem settledLoad_running (s : State) : isRunning (settledLoad s) = true := by
  obtain ⟨alerts, eq⟩ := settledLoad_eq s
  rw [eq]
  rfl

theorem setLine_part (s : State) (l : Line) (x : InputLine) : (setLine s l x).part = s.part := by
  rw [setLine_eq]
  rfl

theorem takeLevel_part (l : Line) (level : Level) (s : State) :
    (takeLevel l level s).part = s.part := by
  obtain ⟨u, moved, eq⟩ := takeLevel_eq l level s
  rw [eq, State.setAlerts_part, moved.part_eq, setLine_part]

theorem pinChanged_part (l : Line) (level : Level) (s : State) :
    (pinChanged l level s).part = s.part := by
  rcases pinChanged_cases l level s with ⟨x, eq⟩ | ⟨x, eq⟩ <;> rw [eq]
  · exact setLine_part s l x
  · rw [takeLevel_part, setLine_part]

theorem settleHead_part (p : PortId) (s : State) : (settleHead p s).part = s.part := by
  unfold settleHead
  split
  · rfl
  · exact (settleFrame_moved _ p _).part_eq

theorem settleHeads_part (ports : List PortId) (s : State) :
    (ports.foldl (fun t q => settleHead q t) s).part = s.part := by
  induction ports generalizing s with
  | nil => rfl
  | cons q rest ih => exact (ih _).trans (settleHead_part q s)

theorem takeThenPlan_part (p : PortId) (s : State) : (takeThenPlan p s).part = s.part := by
  have ask (x : State) : (latePlanAsk x).part = x.part := (latePlanAsk_eventKept x).part
  unfold takeThenPlan
  dsimp only
  split
  · split
    · rw [ask, ask, State.nextDraw_part, settleHeads_part, settleHead_part]
    · rw [ask, State.nextDraw_part, settleHeads_part, settleHead_part]
  · exact settleHead_part p s

theorem exitCopies_part (s : State) : (exitCopies s).part = s.part := by
  have sources (x : State) : (exitSources x).part = x.part := (endRequests_moved _ _ _).part_eq
  have shares (x : State) : (exitShares x).part = x.part := by
    unfold exitShares
    dsimp only
    split <;> rfl
  have lines (x : State) : (exitLines x).part = x.part :=
    (lineEffects_moved x .x1 _).part_eq.trans (lineEffects_moved x .x0 _).part_eq
  simp only [exitCopies, State.setPorts_part, State.setCycle_part, lines, State.setPlanner_part,
    shares, sources, State.setScanner_part]

theorem exitTaken_part (s : State) : (exitTaken s).part = s.part :=
  exitCopies_part (changeModes (copiedModes s.store.image) s)

theorem setupExited_part (s : State) : (setupExited s).part = s.part := by
  rw [setupExited_eq, (endSetup_eventKept _).part, exitTaken_part]

theorem setupEntered_part (p : PortId) (s : State) : (setupEntered p s).part = s.part := by
  obtain ⟨alerts, eq⟩ := setupEntered_blocks p s
  rw [eq]
  rfl

theorem imageWritten_part (start : Nat) (data : List Byte) (s : State) :
    (imageWritten start data s).part = s.part := by
  obtain ⟨x, alerts, eq, _⟩ := storeWritten_eq start data s
  rw [(imageWritten_moved start data s).part_eq, eq]
  rfl

/-- R155: no partner command halts the part. -/
theorem Served.isRunning_eq {p : PortId} {s t : State} (h : Served p s t) :
    isRunning t = isRunning s := by
  have of_part {x : State} (part : x.part = s.part) : isRunning x = isRunning s := by
    simp [isRunning, part]
  cases h
  case written n data permitted => exact of_part (imageWritten_part _ data s)
  case entered => exact of_part (setupEntered_part p s)
  case exited => exact of_part (setupExited_part s)
  case restored => exact of_part (endSetupRestoring_eventKept s).part
  case portReset =>
    obtain ⟨pool, table, eq, _⟩ := resetFrames_blocks p s
    rw [eq]
    rfl
  all_goals rfl

/-- R181: every effect leaves a part that does not run without setup and without scans. -/
theorem Effect.haltedClear {s t : State} (h : Effect s t) (clear : HaltedClear s) :
    HaltedClear t := by
  cases h
  case reset => exact fun _ => ⟨rfl, rfl, rfl⟩
  case loaded =>
    exact .of_running (settledLoad_running s) (completeIfEmpty_eventKept _).isRunning_eq
  case scanStarted running _ => exact .of_running running (completeIfEmpty_eventKept _).isRunning_eq
  case readEnded n rest scan r inFlight reads =>
    cases running : isRunning s
    · have := (clear running).2.1
      rw [inFlight] at this
      cases this
    · exact .of_running running (readEnded_eventKept s scan r).isRunning_eq
  case periodStarted running _ => exact .of_running running (periodStart_eventKept false s).isRunning_eq
  case planCompleted plan _ =>
    have part := ((applyPlan_eventKept plan s).trans ((planEnded_eventKept _).trans
      (beginMarkedLatePlan_eventKept _))).part
    intro halted
    have stopped : isRunning s = false := by simpa [isRunning, part] using halted
    rw [beginMarkedLatePlan_eq, inSetup, State.setPlanner_store, State.setPlanner_scanner,
      State.setPlanner_model]
    obtain ⟨u, moved, eq⟩ := applyPlan_eq plan s
    have same : (planEnded (applyPlan plan s)).store = s.store ∧
        (planEnded (applyPlan plan s)).scanner = s.scanner ∧
        (planEnded (applyPlan plan s)).model = s.model := by
      rw [eq]
      exact ⟨moved.store_eq, moved.scanner_eq, moved.model_eq⟩
    rw [same.1, same.2.1, same.2.2]
    exact clear stopped
  case planDropped =>
    rw [beginMarkedLatePlan_eq]
    exact clear
  case intake p running _ =>
    exact .of_running running (by simp [isRunning, takeThenPlan_part])
  case pinSet =>
    rw [setLine_eq]
    exact clear
  case pinChanged l level running =>
    exact .of_running running (by simp [isRunning, pinChanged_part])
  case settled l level =>
    obtain ⟨u, moved, eq⟩ := takeLevel_eq l level s
    rw [eq]
    intro halted
    have stopped : isRunning u = false := halted
    rw [moved.isRunning_eq, setLine_eq] at stopped
    show inSetup u = false ∧ u.scanner.scan = none ∧ u.model.scanCompleted = false
    rw [moved.inSetup_eq, moved.scanner_eq, moved.model_eq, setLine_eq]
    exact clear stopped
  case released part phase =>
    intro halted
    exact clear (by simpa [isRunning, phase] using halted)
  case served p r t running body => exact .of_running running body.isRunning_eq
  all_goals exact clear

/-- Settles O58: each effect keeps the planner formed, the timer with the first completion, and a halted
part clear. -/
theorem stepsKeepPlannerInOrder : Obligations.StepsKeepPlannerInOrder := by
  intro s t order next
  refine step_keeps (Inv := PlannerInOrder) (fun _ _ h => h) (fun u v h effect => ?_) order next
  obtain ⟨formed, timer, clear⟩ := (plannerInOrder_iff u).mp h
  have kept := effect.plannerKept ⟨formed, timer⟩ fun halted =>
    ⟨(clear halted).1, (clear halted).2.2⟩
  exact (plannerInOrder_iff v).mpr ⟨kept.1, kept.2, effect.haltedClear clear⟩

end Sys2Proof.Machine
end

section
/-! SUPPORT. The frames and their lists through every step (R61 to R65, R78, R80, R84): each operation moves
a frame from the list of its old state to the list of its new one. -/

namespace Sys2Proof.Machine

/-! ## Listed, but for one frame -/

/-- The states that a port keeps a list for. -/
def listedState (st : FrameState) : Prop := st = .free ∨ st = .posted ∨ st = .reported

/-- A list of a port holds exactly its frames in a state, each once, but for the frame `x` that an
operation has in hand. -/
def listsBut (x : Option FrameId) (s : State) (p : PortId) (st : FrameState) (l : List FrameId) :
    Prop :=
  l.Nodup ∧ ∀ i, i ∈ l ↔ ownerOf s i = some p ∧ (frameOf s i).state = st ∧ x ≠ some i

/-- R62 to R65: the lists of every port, but for the frame in hand; a frame that no port owns is FREE. -/
def ListedBut (x : Option FrameId) (s : State) : Prop :=
  (∀ p, listsBut x s p .free (freeList s p) ∧ listsBut x s p .posted (postList s p) ∧
    listsBut x s p .reported (replyQueue s p)) ∧
  ∀ i, ownerOf s i = none → (frameOf s i).state = .free

theorem listsBut_none (s : State) (p : PortId) (st : FrameState) (l : List FrameId) :
    listsBut none s p st l ↔ listsFrames s p st l := by
  simp [listsBut, listsFrames]

theorem framesListed_iff (s : State) : FramesListed s ↔ sharesCopied s ∧ ListedBut none s := by
  simp only [FramesListed, ListedBut, listsBut_none]

/-- The lists stand, and so do the frames of each listed state. -/
structure ListsAlike (s t : State) : Prop where
  shares : t.pool.shares = s.pool.shares
  freeLists : t.pool.freeLists = s.pool.freeLists
  postLists : t.pool.postLists = s.pool.postLists
  replyQueues : t.pool.replyQueues = s.pool.replyQueues
  states : ∀ i st, listedState st → ((frameOf t i).state = st ↔ (frameOf s i).state = st)

theorem poolKept.listsAlike {s t : State} (h : poolKept s t) : ListsAlike s t := by
  obtain ⟨shares, free, post, reply, frames⟩ := h
  exact ⟨shares, free, post, reply, fun i st _ => by rw [(frames i).1]⟩

theorem ListedBut.alike {x : Option FrameId} {s t : State} (h : ListedBut x s)
    (alike : ListsAlike s t) : ListedBut x t := by
  have owner (i : FrameId) : ownerOf t i = ownerOf s i := by simp [ownerOf, alike.shares]
  have list {p : PortId} {st : FrameState} {l : List FrameId} (listed : listedState st)
      (lists : listsBut x s p st l) : listsBut x t p st l := by
    refine ⟨lists.1, fun i => ?_⟩
    rw [lists.2 i, owner, alike.states i st listed]
  obtain ⟨lists, unowned⟩ := h
  refine ⟨fun p => ?_, fun i none => ?_⟩
  · obtain ⟨free, post, reply⟩ := lists p
    simp only [freeList, postList, replyQueue, alike.freeLists, alike.postLists, alike.replyQueues]
    exact ⟨list (.inl rfl) free, list (.inr (.inl rfl)) post, list (.inr (.inr rfl)) reply⟩
  · rw [alike.states i .free (.inl rfl)]
    exact unowned i ((owner i).symm.trans none)

/-! ## One list when one frame moves -/

section Move
variable {x y : Option FrameId} {s t : State} {i : FrameId} {p q : PortId} {st : FrameState}
  {l : List FrameId}

/-- The frame in hand aside, a list stands where the port's frames in its state stand. -/
theorem listsBut.keep (h : listsBut x s q st l)
    (same : ∀ j, (ownerOf t j = some q ∧ (frameOf t j).state = st ∧ y ≠ some j) ↔
      (ownerOf s j = some q ∧ (frameOf s j).state = st ∧ x ≠ some j)) : listsBut y t q st l :=
  ⟨h.1, fun j => (h.2 j).trans (same j).symm⟩

/-- A frame that comes into a state joins the tail of the list. -/
theorem listsBut.append (h : listsBut x s p st l)
    (absent : ¬((frameOf s i).state = st ∧ x ≠ some i))
    (comes : ownerOf t i = some p ∧ (frameOf t i).state = st ∧ y ≠ some i)
    (others : ∀ j, j ≠ i → ((ownerOf t j = some p ∧ (frameOf t j).state = st ∧ y ≠ some j) ↔
      (ownerOf s j = some p ∧ (frameOf s j).state = st ∧ x ≠ some j))) :
    listsBut y t p st (l ++ [i]) := by
  have fresh : i ∉ l := fun mem => absent ((h.2 i).mp mem).2
  refine ⟨?_, fun j => ?_⟩
  · rw [List.nodup_append]
    refine ⟨h.1, by simp, fun a ha b hb => ?_⟩
    rw [List.mem_singleton] at hb
    rintro rfl
    exact fresh (hb ▸ ha)
  · rw [List.mem_append, List.mem_singleton]
    by_cases e : j = i
    · subst e
      simp [comes]
    · simp [e, h.2 j, others j e]

/-- A frame that leaves a state leaves the head of the list. -/
theorem listsBut.tail (h : listsBut x s p st (i :: l))
    (gone : ¬((frameOf t i).state = st ∧ y ≠ some i))
    (others : ∀ j, j ≠ i → ((ownerOf t j = some p ∧ (frameOf t j).state = st ∧ y ≠ some j) ↔
      (ownerOf s j = some p ∧ (frameOf s j).state = st ∧ x ≠ some j))) :
    listsBut y t p st l := by
  obtain ⟨distinct, mem⟩ := h
  rw [List.nodup_cons] at distinct
  refine ⟨distinct.2, fun j => ?_⟩
  by_cases e : j = i
  · subst e
    exact ⟨fun m => absurd m distinct.1, fun here => absurd here.2 gone⟩
  · rw [others j e, ← mem j, List.mem_cons]
    simp [e]

end Move

/-! ## Reports -/

theorem state_reportFrame (outcome : FrameOutcome) (s : State) (i j : FrameId) :
    (frameOf (reportFrame outcome s i) j).state =
      if i = j then .reported else (frameOf s j).state := by
  rw [frameOf_reportFrame]
  split <;> rfl

theorem freeList_of_pool {s t : State} (h : t.pool.freeLists = s.pool.freeLists) (p : PortId) :
    freeList t p = freeList s p := by simp [freeList, h]

theorem postList_of_pool {s t : State} (h : t.pool.postLists = s.pool.postLists) (p : PortId) :
    postList t p = postList s p := by simp [postList, h]

@[simp] theorem replyQueue_setReplyQueue_self (s : State) (p : PortId) (l : List FrameId) :
    replyQueue (setReplyQueue s p l) p = l := by
  simp [replyQueue, setReplyQueue]

theorem replyQueue_setReplyQueue_other (s : State) (p q : PortId) (l : List FrameId) (h : p ≠ q) :
    replyQueue (setReplyQueue s p l) q = replyQueue s q := by
  have h' : p.val ≠ q.val := fun e => h (Fin.ext e)
  simp [replyQueue, setReplyQueue, h']

@[simp] theorem postList_setPostList_self (s : State) (p : PortId) (l : List FrameId) :
    postList (setPostList s p l) p = l := by
  simp [postList, setPostList]

theorem postList_setPostList_other (s : State) (p q : PortId) (l : List FrameId) (h : p ≠ q) :
    postList (setPostList s p l) q = postList s q := by
  have h' : p.val ≠ q.val := fun e => h (Fin.ext e)
  simp [postList, setPostList, h']

@[simp] theorem freeList_setFreeList_self (s : State) (p : PortId) (l : List FrameId) :
    freeList (setFreeList s p l) p = l := by
  simp [freeList, setFreeList]

theorem freeList_setFreeList_other (s : State) (p q : PortId) (l : List FrameId) (h : p ≠ q) :
    freeList (setFreeList s p l) q = freeList s q := by
  have h' : p.val ≠ q.val := fun e => h (Fin.ext e)
  simp [freeList, setFreeList, h']

theorem replyQueue_reportFrame (outcome : FrameOutcome) (s : State) (i : FrameId) (q : PortId) :
    replyQueue (reportFrame outcome s i) q =
      if ownerOf s i = some q then replyQueue s q ++ [i] else replyQueue s q := by
  unfold reportFrame
  dsimp only
  cases owner : ownerOf s i with
  | none => rfl
  | some p =>
    by_cases same : p = q
    · subst same
      rw [if_pos rfl]
      exact replyQueue_setReplyQueue_self _ p _
    · rw [if_neg (by simpa using same)]
      exact replyQueue_setReplyQueue_other _ p q _ same

/-- R80: a frame that is in none of the lists is reported: its entry is at the tail of its port's reply
queue. -/
theorem ListedBut.reportFrame {x y : Option FrameId} {s : State} {i : FrameId}
    (h : ListedBut x s) (outcome : FrameOutcome)
    (owned : ∃ p, ownerOf s i = some p)
    (absent : ∀ st, listedState st → ¬((frameOf s i).state = st ∧ x ≠ some i))
    (hand : ∀ j, y = some j ↔ x = some j ∧ j ≠ i) :
    ListedBut y (reportFrame outcome s i) := by
  obtain ⟨lists, unowned⟩ := h
  have moved := reportFrame_moved outcome s i
  have self : (frameOf (Machine.reportFrame outcome s i) i).state = .reported := by
    rw [state_reportFrame, if_pos rfl]
  have notInHand : y ≠ some i := fun e => ((hand i).mp e).2 rfl
  have others (q : PortId) (st : FrameState) (j : FrameId) (e : j ≠ i) :
      (ownerOf (Machine.reportFrame outcome s i) j = some q ∧
        (frameOf (Machine.reportFrame outcome s i) j).state = st ∧ y ≠ some j) ↔
      (ownerOf s j = some q ∧ (frameOf s j).state = st ∧ x ≠ some j) := by
    have inHand : y = some j ↔ x = some j := (hand j).trans (and_iff_left e)
    rw [moved.ownerOf_eq, state_reportFrame, if_neg (Ne.symm e), ne_eq, inHand]
  have stands (q : PortId) (st : FrameState) (listed : listedState st) (differs : st ≠ .reported)
      {l : List FrameId} (old : listsBut x s q st l) :
      listsBut y (Machine.reportFrame outcome s i) q st l := by
    refine old.keep fun j => ?_
    by_cases e : j = i
    · subst e
      rw [self]
      exact ⟨fun now => absurd now.2.1.symm differs, fun before => absurd before.2 (absent st listed)⟩
    · exact others q st j e
  refine ⟨fun q => ?_, fun j none => ?_⟩
  · obtain ⟨free, post, reply⟩ := lists q
    rw [freeList_of_pool moved.2.2.2.1, postList_of_pool moved.2.2.2.2, replyQueue_reportFrame]
    refine ⟨stands q _ (.inl rfl) (by simp) free, stands q _ (.inr (.inl rfl)) (by simp) post, ?_⟩
    split
    · rename_i owner
      exact reply.append (absent _ (.inr (.inr rfl)))
        ⟨(moved.ownerOf_eq i).trans owner, self, notInHand⟩ (others q _)
    · rename_i other
      refine reply.keep fun j => ?_
      by_cases e : j = i
      · subst e
        rw [moved.ownerOf_eq]
        exact ⟨fun now => absurd now.1 other, fun before => absurd before.1 other⟩
      · exact others q _ j e
  · rw [moved.ownerOf_eq] at none
    obtain ⟨p, owner⟩ := owned
    have e : i ≠ j := fun e => by
      rw [e, none] at owner
      cases owner
    rw [state_reportFrame, if_neg e]
    exact unowned j none

theorem isHeld_iff (s : State) (i : FrameId) :
    isHeld s i = true ↔ ∃ age, (frameOf s i).state = .held age := by
  unfold isHeld
  cases (frameOf s i).state <;> simp

theorem not_listed_of_isHeld {s : State} {i : FrameId} (h : isHeld s i = true) (st : FrameState)
    (listed : listedState st) : (frameOf s i).state ≠ st := by
  obtain ⟨age, held⟩ := (isHeld_iff s i).mp h
  rw [held]
  rcases listed with rfl | rfl | rfl <;> simp

/-- A frame that is not FREE is owned. -/
theorem ListedBut.owned {x : Option FrameId} {s : State} (h : ListedBut x s) {i : FrameId}
    (used : (frameOf s i).state ≠ .free) : ∃ p, ownerOf s i = some p := by
  cases owner : ownerOf s i with
  | none => exact absurd (h.2 i owner) used
  | some p => exact ⟨p, rfl⟩

/-- R80: the report of a HELD frame. -/
theorem ListedBut.reportHeld {x : Option FrameId} {s : State} {i : FrameId} (h : ListedBut x s)
    (outcome : FrameOutcome) (held : isHeld s i = true) (other : x ≠ some i) :
    ListedBut x (Machine.reportFrame outcome s i) :=
  h.reportFrame outcome (h.owned (not_listed_of_isHeld held _ (.inl rfl)))
    (fun st listed now => not_listed_of_isHeld held st listed now.1)
    fun j => ⟨fun e => ⟨e, fun eq => other (eq ▸ e)⟩, fun e => e.1⟩

/-- R75: the report of the frame in hand. -/
theorem ListedBut.reportInHand {s : State} {i : FrameId} (h : ListedBut (some i) s)
    (outcome : FrameOutcome) (owned : ∃ p, ownerOf s i = some p) :
    ListedBut none (Machine.reportFrame outcome s i) :=
  h.reportFrame outcome owned (fun _ _ now => now.2 rfl) fun _ =>
    ⟨fun e => (nomatch e), fun e => absurd (Option.some.inj e.1).symm e.2⟩

theorem releaseSource_kept (s : State) (k : SlotId) : poolKept s (releaseSource s k) := by
  unfold releaseSource
  split
  · exact modGrant_kept s k _
  · exact .refl s

theorem ListedBut.endRequest {x : Option FrameId} {s : State} {i : FrameId} (h : ListedBut x s)
    (outcome : FrameOutcome) (other : x ≠ some i) : ListedBut x (endRequest outcome s i) := by
  unfold Machine.endRequest
  split
  · rename_i held
    have reported := h.reportHeld outcome held other
    split
    · exact reported
    · exact reported.alike (releaseSource_kept _ _).listsAlike
  · exact h

theorem ListedBut.endRequests {s : State} (h : ListedBut none s)
    (outcome : FrameId → FrameOutcome) (ended : FrameId → Bool) :
    ListedBut none (endRequests outcome s ended) := by
  unfold Machine.endRequests
  induction allFrames.filter ended generalizing s with
  | nil => exact h
  | cons i rest ih => exact ih (h.endRequest (outcome i) (by simp))

/-! ## The period start, the completion and the end of setup -/

theorem countSources_kept (s : State) : poolKept s (countSources s) := by
  have moved := countSources_moved s
  refine ⟨moved.2.2.1, moved.2.2.2.1, moved.2.2.2.2, ?_, countSources_frame s⟩
  simp [countSources, countPeriodsRun, eachFrame, eachGrant]

theorem ageRequests_alike (s : State) : ListsAlike s (ageRequests s) := by
  have moved := ageRequests_moved s
  refine ⟨moved.2.2.1, moved.2.2.2.1, moved.2.2.2.2, by simp [ageRequests, eachFrame],
    fun i st listed => ?_⟩
  rw [frameOf_ageRequests]
  unfold agedFrame
  cases state : (frameOf s i).state <;> rcases listed with rfl | rfl | rfl <;> simp [state]

/-- The pool is as it was. -/
theorem ListsAlike.of_pool {s t : State} (h : t.pool = s.pool) : ListsAlike s t := by
  refine ⟨by rw [h], by rw [h], by rw [h], by rw [h], fun i st _ => ?_⟩
  simp [frameOf, h]

theorem endGrantOf_kept (s : State) (i : FrameId) : poolKept s (endGrantOf s i) := by
  unfold endGrantOf
  split
  · exact .refl s
  · exact endGrant_kept _ s _

theorem ListedBut.expireRequests {s : State} (h : ListedBut none s) :
    ListedBut none (expireRequests s) :=
  (h.alike (poolKept.foldl endGrantOf endGrantOf_kept _ s).listsAlike).endRequests _ _

theorem evaluateCycle_pool (s : State) : (evaluateCycle s).pool = s.pool := by
  rw [evaluateCycle_eq]
  rfl

theorem countSilence_kept (s : State) : poolKept s (countSilence s) := by
  have counted : poolKept s (endGrants .portSilent s
      ((runningSlots s).filter fun k => ownerFallsSilent s k)) := endGrants_kept _ _ _
  unfold countSilence
  split <;> exact counted

theorem ListedBut.countedState {s : State} (h : ListedBut none s) (first : Bool) :
    ListedBut none (countedState first s) := by
  have begun : ListedBut none (raiseOccurrence .periodStart (advancePeriod first s)) :=
    h.alike (.of_pool rfl)
  exact (begun.alike (countSources_kept _).listsAlike).alike (ageRequests_alike _)

theorem ListedBut.periodCounted {s : State} (h : ListedBut none s) (first : Bool) :
    ListedBut none (periodCounted first s) := by
  have expired := ((h.countedState first).alike
    (endGrants_kept .portSilent _ (silencedFirst (Machine.countedState first s))).listsAlike).expireRequests
  exact (expired.alike (.of_pool (evaluateCycle_pool _))).alike (countSilence_kept _).listsAlike

theorem beforePlan_pool (first : Bool) (s : State) :
    (beforePlan first s).pool = (periodCounted first s).pool := by
  unfold beforePlan takeSnapshot
  rw [State.setPlanner_pool]

theorem planAtPeriodStart_pool (s : State) : (planAtPeriodStart s).pool = s.pool := by
  rw [planAtPeriodStart_eq]
  rfl

theorem ListedBut.periodStartTaken {s : State} (h : ListedBut none s) (first : Bool) :
    ListedBut none (periodStartTaken first s) := by
  refine (h.periodCounted first).alike (.of_pool ?_)
  rw [periodStartTaken_eq, State.nextDraw_pool, planAtPeriodStart_pool, beforePlan_pool]

theorem ListedBut.endAtTarget {s : State} (h : ListedBut none s) (slots : List SlotId) :
    ListedBut none (endAtTarget s slots) :=
  (h.alike (endGrants_kept .target s slots).listsAlike).endRequests _ _

theorem revokeAll_kept (cause : EndCause) (s : State) : poolKept s (revokeAll cause s) :=
  endGrants_kept cause s _

theorem ListedBut.neighboursTake {s : State} (h : ListedBut none s) (scan : Scan) :
    ListedBut none (neighboursTake scan s) := by
  unfold Machine.neighboursTake
  split
  · exact h.alike (revokeAll_kept _ s).listsAlike
  · have judged : ListedBut none (s.setSafety { s.safety with overtemp := overtempAfter scan s }) := h
    dsimp only
    split
    · exact (judged.endAtTarget _).alike (revokeAll_kept _ _).listsAlike
    · exact judged.endAtTarget _

theorem ListedBut.scanApplied {s : State} (h : ListedBut none s) (scan : Scan) :
    ListedBut none (scanApplied scan s) := by
  obtain ⟨alerts, eq⟩ := scanApplied_eq scan s
  have applied : ListedBut none (applyScan scan s) := h.alike (.of_pool rfl)
  refine (applied.neighboursTake scan).alike (.of_pool ?_)
  rw [eq, State.nextDraw_pool, State.setAlerts_pool]

theorem ListedBut.periodStartOfR90 {s : State} (h : ListedBut none s) :
    ListedBut none (periodStartOfR90 s) := by
  unfold Machine.periodStartOfR90
  split
  · exact h.periodStartTaken false
  · exact h

theorem ListedBut.firstPeriodStart {s : State} (h : ListedBut none s) (before : State) :
    ListedBut none (firstPeriodStart before s) := by
  unfold Machine.firstPeriodStart
  split
  · exact h
  · exact h.periodStartTaken true

theorem ListedBut.endSetup {s : State} (h : ListedBut none s) : ListedBut none (endSetup s) := by
  have left : ListedBut none (setupLeft s) := h
  unfold Machine.endSetup
  dsimp only
  split
  · exact left.periodStartOfR90
  · split
    · exact (left.scanApplied _).periodStartOfR90
    · exact (left.periodStartOfR90.scanApplied _).firstPeriodStart _

theorem ListedBut.endSetupRestoring {s : State} (h : ListedBut none s) :
    ListedBut none (endSetupRestoring s) := by
  cases inside : s.store.setup with
  | none => rwa [endSetupRestoring_outside inside]
  | some setup =>
    obtain ⟨alerts, eq⟩ := imageRestored_eq setup s
    rw [endSetupRestoring_of_setup inside, eq]
    exact ListedBut.endSetup (s := _) h

theorem ListedBut.periodStart {s : State} (h : ListedBut none s) (first : Bool) :
    ListedBut none (periodStart first s) := by
  unfold Machine.periodStart
  dsimp only
  split
  · exact (h.periodStartTaken first).endSetupRestoring
  · exact h.periodStartTaken first

theorem ListedBut.scanCompleted {s : State} (h : ListedBut none s) (scan : Scan) :
    ListedBut none (scanCompleted scan s) := by
  unfold Machine.scanCompleted
  dsimp only
  split
  · exact h.scanApplied scan
  · exact (h.scanApplied scan).periodStart true

theorem ListedBut.completeIfEmpty {s : State} (h : ListedBut none s) :
    ListedBut none (completeIfEmpty s) := by
  unfold Machine.completeIfEmpty
  split
  · exact h
  · exact h.scanCompleted _

theorem ListedBut.readEnded {s : State} (h : ListedBut none s) (scan : Scan) (r : ReadResult) :
    ListedBut none (readEnded s scan r) := by
  unfold Machine.readEnded
  dsimp only
  split
  · exact h.scanCompleted _
  · exact h

/-! ## The intake -/

/-- R74: the head of a post list is taken in hand. -/
theorem ListedBut.headTaken {s : State} (h : ListedBut none s) {p : PortId} {i : FrameId}
    {rest : List FrameId} (head : postList s p = i :: rest) :
    ListedBut (some i) (setPostList s p rest) ∧ ownerOf s i = some p ∧
      (frameOf s i).state = .posted := by
  obtain ⟨lists, unowned⟩ := h
  have post := (lists p).2.1
  rw [head] at post
  obtain ⟨owner, state, _⟩ := (post.2 i).mp (List.mem_cons_self ..)
  have others (q : PortId) (st : FrameState) (j : FrameId) (e : j ≠ i) :
      (ownerOf (setPostList s p rest) j = some q ∧ (frameOf (setPostList s p rest) j).state = st ∧
        (some i : Option FrameId) ≠ some j) ↔
      (ownerOf s j = some q ∧ (frameOf s j).state = st ∧ (none : Option FrameId) ≠ some j) := by
    have ne : i ≠ j := Ne.symm e
    simp only [ne_eq, Option.some.injEq, ne, not_false_iff, and_true, reduceCtorEq]
    exact Iff.rfl
  have stands (q : PortId) (st : FrameState) (differs : q ≠ p ∨ st ≠ .posted) {l : List FrameId}
      (old : listsBut none s q st l) : listsBut (some i) (setPostList s p rest) q st l := by
    refine old.keep fun j => ?_
    by_cases e : j = i
    · subst e
      refine ⟨fun now => absurd rfl now.2.2, fun before => ?_⟩
      rcases differs with differs | differs
      · rw [owner] at before
        exact absurd (Option.some.inj before.1).symm differs
      · exact absurd (before.2.1.symm.trans state) differs
    · exact others q st j e
  refine ⟨⟨fun q => ?_, unowned⟩, owner, state⟩
  obtain ⟨free, posted, reply⟩ := lists q
  refine ⟨stands q _ (.inr (by simp)) free, ?_, stands q _ (.inr (by simp)) reply⟩
  by_cases same : q = p
  · subst same
    rw [postList_setPostList_self]
    exact post.tail (fun now => now.2 rfl) (others q _)
  · rw [postList_setPostList_other s p q rest (Ne.symm same)]
    exact stands q _ (.inl same) posted

theorem frameOf_setPostList (s : State) (p : PortId) (l : List FrameId) (i : FrameId) :
    frameOf (setPostList s p l) i = frameOf s i := rfl

theorem state_holdFrame (s : State) (i j : FrameId) : (frameOf (holdFrame s i) j).state =
    if i = j then .held 0 else (frameOf s j).state := by
  unfold holdFrame
  by_cases e : i = j
  · subst e
    simp
  · simp [e, frameOf_modFrame_other s i j _ e]

/-- R77: the frame in hand becomes HELD. -/
theorem ListedBut.holdFrame {s : State} {i : FrameId} (h : ListedBut (some i) s)
    (owned : ∃ p, ownerOf s i = some p) : ListedBut none (holdFrame s i) := by
  obtain ⟨lists, unowned⟩ := h
  have stands (q : PortId) (st : FrameState) (listed : listedState st) {l : List FrameId}
      (old : listsBut (some i) s q st l) : listsBut none (Machine.holdFrame s i) q st l := by
    refine old.keep fun j => ?_
    rw [state_holdFrame]
    by_cases e : i = j
    · subst e
      refine ⟨fun now => ?_, fun before => absurd rfl before.2.2⟩
      rw [if_pos rfl] at now
      rcases listed with rfl | rfl | rfl <;> exact absurd now.2.1 (by simp)
    · simp only [e, if_false, ne_eq, Option.some.injEq, not_false_iff, and_true, reduceCtorEq]
      exact Iff.rfl
  refine ⟨fun q => ?_, fun j none => ?_⟩
  · obtain ⟨free, post, reply⟩ := lists q
    exact ⟨stands q _ (.inl rfl) free, stands q _ (.inr (.inl rfl)) post,
      stands q _ (.inr (.inr rfl)) reply⟩
  · obtain ⟨p, owner⟩ := owned
    have e : i ≠ j := fun e => by
      have : ownerOf s j = Option.none := none
      rw [← e, owner] at this
      cases this
    rw [state_holdFrame, if_neg e]
    exact unowned j none

theorem acceptForSource_kept (s : State) (k : SlotId) : poolKept s (acceptForSource s k) :=
  modGrant_kept s k _

theorem cancelTarget_some {s : State} {p : PortId} {b : Byte} {i : FrameId}
    (h : cancelTarget s p b = some i) : ownerOf s i = some p ∧ isHeld s i = true := by
  unfold cancelTarget at h
  split at h
  · cases h
  · split at h
    · cases h
      assumption
    · cases h

/-- R75: a frame that passes names what its kind needs. -/
theorem intakeRefusal_none {s : State} {p : PortId} {r : Request}
    (h : intakeRefusal s p r = none) :
    (∃ k, (requestKind r.kind = some .heat ∨ requestKind r.kind = some .standing) ∧
        slotOf r.slot = some k ∧ (recordOf s k).owner = some p ∧ heldFor s k = none) ∨
      (requestKind r.kind = some .reserve ∨ requestKind r.kind = some .comfort) ∨
      ∃ target, requestKind r.kind = some .cancel ∧ cancelTarget s p r.cancel = some target := by
  have source (none : sourceRefusal s p r.slot = none) : ∃ k, slotOf r.slot = some k ∧
      (recordOf s k).owner = some p ∧ heldFor s k = Option.none := by
    unfold sourceRefusal at none
    split at none
    · cases none
    · rename_i k named
      split at none
      · cases none
      · rename_i owner
        split at none
        · cases none
        · rename_i free
          exact ⟨k, named, by simpa using owner, by simpa using free⟩
  unfold intakeRefusal at h
  cases kind : requestKind r.kind with
  | none => simp [kind] at h
  | some x =>
    cases x <;> simp only [kind] at h
    · obtain ⟨k, rest⟩ := source h
      exact .inl ⟨k, .inl rfl, rest⟩
    · obtain ⟨k, rest⟩ := source h
      exact .inl ⟨k, .inr rfl, rest⟩
    · exact .inr (.inl (.inl rfl))
    · exact .inr (.inl (.inr rfl))
    · cases target : cancelTarget s p r.cancel with
      | none => simp [target] at h
      | some t => exact .inr (.inr ⟨t, rfl, rfl⟩)

/-- R75 to R78: what settling a frame comes to. -/
theorem settleFrame_cases (s : State) (p : PortId) (i : FrameId) :
    (∃ outcome, intakeRefusal s p (frameOf s i).request = some outcome ∧
      settleFrame s p i = reportFrame outcome s i) ∨
    (∃ k, (kindOf s i = some .heat ∨ kindOf s i = some .standing) ∧
      slotOf (frameOf s i).request.slot = some k ∧ (recordOf s k).owner = some p ∧
      heldFor s k = none ∧ settleFrame s p i = acceptForSource (holdFrame s i) k) ∨
    ((kindOf s i = some .reserve ∨ kindOf s i = some .comfort) ∧
      settleFrame s p i = holdFrame s i) ∨
    ∃ target, kindOf s i = some .cancel ∧ ownerOf s target = some p ∧ isHeld s target = true ∧
      cancelTarget s p (frameOf s i).request.cancel = some target ∧
      settleFrame s p i = cancelRequest s i target := by
  unfold settleFrame kindOf
  dsimp only
  cases refusal : intakeRefusal s p (frameOf s i).request with
  | some outcome => exact .inl ⟨outcome, rfl, rfl⟩
  | none =>
    refine .inr ?_
    rcases intakeRefusal_none refusal with ⟨k, kind | kind, named, owner, free⟩ |
      (kind | kind) | ⟨target, kind, named⟩
    · exact .inl ⟨k, .inl kind, named, owner, free, by simp only [kind, named]⟩
    · exact .inl ⟨k, .inr kind, named, owner, free, by simp only [kind, named]⟩
    · exact .inr (.inl ⟨.inl kind, by simp only [kind]⟩)
    · exact .inr (.inl ⟨.inr kind, by simp only [kind]⟩)
    · obtain ⟨owner, held⟩ := cancelTarget_some named
      exact .inr (.inr ⟨target, kind, owner, held, named, by simp only [kind, named]⟩)

theorem ListedBut.settleFrame {s : State} {i : FrameId} (h : ListedBut (some i) s) (p : PortId)
    (owner : ownerOf s i = some p) (state : (frameOf s i).state = .posted) :
    ListedBut none (settleFrame s p i) := by
  rcases settleFrame_cases s p i with ⟨outcome, _, eq⟩ | ⟨k, _, _, _, _, eq⟩ | ⟨_, eq⟩ |
    ⟨target, _, _, held, _, eq⟩ <;> rw [eq]
  · exact h.reportInHand outcome ⟨p, owner⟩
  · exact (h.holdFrame ⟨p, owner⟩).alike (acceptForSource_kept _ k).listsAlike
  · exact h.holdFrame ⟨p, owner⟩
  · have other : (some i : Option FrameId) ≠ some target := by
      rintro e
      cases e
      exact not_listed_of_isHeld held _ (.inr (.inl rfl)) state
    have ended := (h.alike (endGrantOf_kept s target).listsAlike).endRequest .cancelled other
    refine ended.reportInHand .done ⟨p, ?_⟩
    rw [(endRequest_moved _ _ _).ownerOf_eq, (endGrantOf_moved s target).ownerOf_eq, owner]

theorem ListedBut.settleHead {s : State} (h : ListedBut none s) (p : PortId) :
    ListedBut none (settleHead p s) := by
  unfold Machine.settleHead
  split
  · exact h
  · rename_i i rest head
    obtain ⟨taken, owner, state⟩ := h.headTaken head
    exact taken.settleFrame p owner state

theorem ListedBut.settleHeads (ports : List PortId) {s : State} (h : ListedBut none s) :
    ListedBut none (ports.foldl (fun t q => Machine.settleHead q t) s) := by
  induction ports generalizing s with
  | nil => exact h
  | cons q rest ih => exact ih (h.settleHead q)

theorem latePlanAsk_pool (s : State) : (latePlanAsk s).pool = s.pool := by
  rw [latePlanAsk_eq]
  rfl

theorem ListedBut.takeThenPlan {s : State} (h : ListedBut none s) (p : PortId) :
    ListedBut none (takeThenPlan p s) := by
  have asked {x : State} (listed : ListedBut none x) : ListedBut none (latePlanAsk x) :=
    listed.alike (.of_pool (latePlanAsk_pool x))
  have heads : ListedBut none ((takenBeforePlan (Machine.settleHead p s) p).foldl
      (fun t q => Machine.settleHead q t) (Machine.settleHead p s)).nextDraw :=
    (h.settleHead p).settleHeads _
  unfold Machine.takeThenPlan
  dsimp only
  split
  · split
    · exact asked (asked heads)
    · exact asked heads
  · exact h.settleHead p

end Sys2Proof.Machine
end

section
/-! SUPPORT. The frame commands, PORT-RESET, the accepted exit and the load on the lists (R61 to R73, R84,
R86), and the shares in force (R61): every step keeps the frames listed. -/

namespace Sys2Proof.Machine

/-! ## The frame commands -/

theorem state_modFrame (s : State) (i j : FrameId) (f : Frame → Frame) :
    (frameOf (modFrame s i f) j).state = if i = j then (f (frameOf s i)).state
      else (frameOf s j).state := by
  by_cases e : i = j
  · subst e
    simp
  · simp [e, frameOf_modFrame_other s i j f e]

section Commands
variable {s t : State} {p : PortId} {i : FrameId} {a b : FrameState}

/-- A frame of the port alone has gone from one state to another. -/
structure FrameMoved (s t : State) (p : PortId) (i : FrameId) (a b : FrameState) : Prop where
  shares : t.pool.shares = s.pool.shares
  owner : ownerOf s i = some p
  before : (frameOf s i).state = a
  after : (frameOf t i).state = b
  differ : a ≠ b
  others : ∀ j, j ≠ i → (frameOf t j).state = (frameOf s j).state

namespace FrameMoved
variable (m : FrameMoved s t p i a b)
include m

theorem ownerOf_eq (j : FrameId) : ownerOf t j = ownerOf s j := by simp [ownerOf, m.shares]

theorem elsewhere (q : PortId) (st : FrameState) (j : FrameId) (e : j ≠ i) :
    (ownerOf t j = some q ∧ (frameOf t j).state = st ∧ (none : Option FrameId) ≠ some j) ↔
      (ownerOf s j = some q ∧ (frameOf s j).state = st ∧ (none : Option FrameId) ≠ some j) := by
  rw [m.ownerOf_eq, m.others j e]

/-- A list of another port, or of neither state, stands. -/
theorem stands {q : PortId} {st : FrameState} {l : List FrameId}
    (other : q ≠ p ∨ (st ≠ a ∧ st ≠ b)) (old : listsBut none s q st l) :
    listsBut none t q st l := by
  refine old.keep fun j => ?_
  by_cases e : j = i
  · subst e
    rw [m.ownerOf_eq, m.owner, m.before, m.after]
    rcases other with other | ⟨fromOld, toNew⟩
    · exact ⟨fun now => absurd (Option.some.inj now.1).symm other,
        fun now => absurd (Option.some.inj now.1).symm other⟩
    · exact ⟨fun now => absurd now.2.1.symm toNew, fun now => absurd now.2.1.symm fromOld⟩
  · exact m.elsewhere q st j e

theorem joins {l : List FrameId} (old : listsBut none s p b l) :
    listsBut none t p b (l ++ [i]) :=
  old.append (fun now => m.differ (m.before.symm.trans now.1))
    ⟨(m.ownerOf_eq i).trans m.owner, m.after, by simp⟩ (m.elsewhere p b)

theorem leaves {l : List FrameId} (old : listsBut none s p a (i :: l)) : listsBut none t p a l :=
  old.tail (fun now => m.differ (now.1.symm.trans m.after)) (m.elsewhere p a)

theorem unowned (old : ∀ j, ownerOf s j = none → (frameOf s j).state = .free) (j : FrameId)
    (none : ownerOf t j = none) : (frameOf t j).state = .free := by
  rw [m.ownerOf_eq] at none
  have e : j ≠ i := by
    rintro rfl
    rw [m.owner] at none
    cases none
  rw [m.others j e]
  exact old j none

end FrameMoved

end Commands

theorem ListedBut.taken {s : State} (h : ListedBut none s) {p : PortId} {i : FrameId}
    {rest : List FrameId} (head : freeList s p = i :: rest) :
    ListedBut none (modFrame (setFreeList s p rest) i fun _ => clearedFrame .taken) := by
  obtain ⟨lists, unowned⟩ := h
  have free := (lists p).1
  rw [head] at free
  obtain ⟨owner, state, _⟩ := (free.2 i).mp (List.mem_cons_self ..)
  have m : FrameMoved s (modFrame (setFreeList s p rest) i fun _ => clearedFrame .taken) p i
      .free .taken :=
    ⟨rfl, owner, state, by rw [state_modFrame, if_pos rfl]; rfl, by simp,
      fun j e => by rw [state_modFrame, if_neg (Ne.symm e)]; rfl⟩
  refine ⟨fun q => ?_, m.unowned unowned⟩
  obtain ⟨freeQ, post, reply⟩ := lists q
  refine ⟨?_, m.stands (.inr (by simp)) post, m.stands (.inr (by simp)) reply⟩
  show listsBut none _ q .free (freeList (setFreeList s p rest) q)
  by_cases same : q = p
  · subst same
    rw [freeList_setFreeList_self]
    exact m.leaves free
  · rw [freeList_setFreeList_other s p q rest (Ne.symm same)]
    exact m.stands (.inl same) freeQ

theorem ListedBut.collected {s : State} (h : ListedBut none s) {p : PortId} {i : FrameId}
    {rest : List FrameId} (head : replyQueue s p = i :: rest) :
    ListedBut none (setReplyQueue (setFrameState s i .collected) p rest) := by
  obtain ⟨lists, unowned⟩ := h
  have reply := (lists p).2.2
  rw [head] at reply
  obtain ⟨owner, state, _⟩ := (reply.2 i).mp (List.mem_cons_self ..)
  have m : FrameMoved s (setReplyQueue (setFrameState s i .collected) p rest) p i
      .reported .collected :=
    ⟨rfl, owner, state, by rw [frameOf_setReplyQueue, setFrameState, state_modFrame, if_pos rfl],
      by simp, fun j e => by
        rw [frameOf_setReplyQueue, setFrameState, state_modFrame, if_neg (Ne.symm e)]⟩
  refine ⟨fun q => ?_, m.unowned unowned⟩
  obtain ⟨free, post, replyQ⟩ := lists q
  refine ⟨m.stands (.inr (by simp)) free, m.stands (.inr (by simp)) post, ?_⟩
  by_cases same : q = p
  · subst same
    rw [replyQueue_setReplyQueue_self]
    exact m.leaves reply
  · rw [replyQueue_setReplyQueue_other _ p q rest (Ne.symm same)]
    exact m.stands (.inl same) replyQ

theorem ListedBut.posted {s : State} (h : ListedBut none s) {p : PortId} {i : FrameId}
    (owner : ownerOf s i = some p) (state : (frameOf s i).state = .taken) :
    ListedBut none (setPostList
      (modFrame s i fun fr => { fr with state := .posted, result := clearedResult }) p
      (postList s p ++ [i])) := by
  obtain ⟨lists, unowned⟩ := h
  have m : FrameMoved s (setPostList
      (modFrame s i fun fr => { fr with state := .posted, result := clearedResult }) p
      (postList s p ++ [i])) p i .taken .posted :=
    ⟨rfl, owner, state, by rw [frameOf_setPostList, state_modFrame, if_pos rfl], by simp,
      fun j e => by rw [frameOf_setPostList, state_modFrame, if_neg (Ne.symm e)]⟩
  refine ⟨fun q => ?_, m.unowned unowned⟩
  obtain ⟨free, post, reply⟩ := lists q
  refine ⟨m.stands (.inr (by simp)) free, ?_, m.stands (.inr (by simp)) reply⟩
  by_cases same : q = p
  · subst same
    rw [postList_setPostList_self]
    exact m.joins post
  · rw [postList_setPostList_other _ p q _ (Ne.symm same)]
    exact m.stands (.inl same) post

theorem ListedBut.freed {s : State} (h : ListedBut none s) {p : PortId} {i : FrameId}
    (owner : ownerOf s i = some p)
    (state : (frameOf s i).state = .taken ∨ (frameOf s i).state = .collected) :
    ListedBut none (freed s p i) := by
  obtain ⟨lists, unowned⟩ := h
  have now : (frameOf (Machine.freed s p i) i).state = .free := by
    show (frameOf (modFrame s i fun fr => { fr with state := .free }) i).state = _
    rw [state_modFrame, if_pos rfl]
  have others (j : FrameId) (e : j ≠ i) :
      (frameOf (Machine.freed s p i) j).state = (frameOf s j).state := by
    show (frameOf (modFrame s i fun fr => { fr with state := .free }) j).state = _
    rw [state_modFrame, if_neg (Ne.symm e)]
  have m : ∃ a, FrameMoved s (Machine.freed s p i) p i a .free ∧ a ≠ .posted ∧ a ≠ .reported := by
    rcases state with state | state
    · exact ⟨_, ⟨rfl, owner, state, now, by simp, others⟩, by simp, by simp⟩
    · exact ⟨_, ⟨rfl, owner, state, now, by simp, others⟩, by simp, by simp⟩
  obtain ⟨a, m, notPosted, notReported⟩ := m
  refine ⟨fun q => ?_, m.unowned unowned⟩
  obtain ⟨free, post, reply⟩ := lists q
  refine ⟨?_, m.stands (.inr ⟨notPosted.symm, by simp⟩) post,
    m.stands (.inr ⟨notReported.symm, by simp⟩) reply⟩
  unfold Machine.freed
  by_cases same : q = p
  · subst same
    rw [freeList_setFreeList_self]
    exact m.joins free
  · rw [freeList_setFreeList_other _ p q _ (Ne.symm same)]
    exact m.stands (.inl same) free

/-! ## PORT-RESET -/

theorem mem_portFrames (shares : Vector Nat 4) (p : PortId) (i : FrameId) :
    i ∈ portFrames shares p ↔ frameOwner shares i = some p := by
  simp [portFrames]

theorem portFrames_nodup (shares : Vector Nat 4) (p : PortId) : (portFrames shares p).Nodup :=
  (List.nodup_finRange 48).filter _

theorem frameOf_setFrameState (s : State) (i j : FrameId) (st : FrameState) :
    frameOf (setFrameState s i st) j =
      if i = j then { frameOf s j with state := st } else frameOf s j := by
  unfold setFrameState
  by_cases e : i = j
  · subst e
    simp
  · simp [e, frameOf_modFrame_other s i j _ e]

theorem frameOf_setFrameStates (l : List FrameId) (s : State) (j : FrameId) :
    frameOf (l.foldl (fun t i => setFrameState t i .free) s) j =
      if j ∈ l then { frameOf s j with state := .free } else frameOf s j := by
  induction l generalizing s with
  | nil => simp
  | cons i rest ih =>
    rw [List.foldl_cons, ih, frameOf_setFrameState]
    by_cases e : i = j
    · subst e
      simp
    · have e' : ¬j = i := fun h => e h.symm
      simp [e, e']

/-- R84: every frame of the port is FREE with its bytes as they were. -/
theorem frameOf_framesFreed (p : PortId) (s : State) (j : FrameId) :
    frameOf (framesFreed p s) j =
      if ownerOf s j = some p then { frameOf s j with state := .free } else frameOf s j := by
  unfold framesFreed
  rw [frameOf_setFrameStates]
  simp only [mem_portFrames]
  rfl

theorem replyQueues_setFrameStates (l : List FrameId) (s : State) :
    (l.foldl (fun t i => setFrameState t i .free) s).pool.replyQueues = s.pool.replyQueues := by
  induction l generalizing s with
  | nil => rfl
  | cons i rest ih => exact (ih _).trans rfl

theorem sourceDiscarded_kept (s : State) (k : SlotId) : poolKept s (sourceDiscarded s k) :=
  (endGrant_kept .requestEnd s k).trans (releaseSource_kept _ k)

theorem requestsDiscarded_kept (p : PortId) (s : State) :
    poolKept (framesFreed p s) (requestsDiscarded p s) :=
  poolKept.foldl sourceDiscarded sourceDiscarded_kept _ _

/-- R84: the three lists of a port after its reset of frames, over any frames. -/
theorem lists_reset (s : State) (p q : PortId) (mine : List FrameId) :
    freeList (setFreeList (setReplyQueue (setPostList s p []) p []) p mine) q =
        (if q = p then mine else freeList s q) ∧
      postList (setFreeList (setReplyQueue (setPostList s p []) p []) p mine) q =
        (if q = p then [] else postList s q) ∧
      replyQueue (setFreeList (setReplyQueue (setPostList s p []) p []) p mine) q =
        (if q = p then [] else replyQueue s q) := by
  have queue (x : State) : replyQueue (setFreeList x p mine) q = replyQueue x q := rfl
  have post (x : State) : postList (setFreeList (setReplyQueue x p []) p mine) q = postList x q := rfl
  have free (x : State) : freeList (setReplyQueue (setPostList x p []) p []) q = freeList x q := rfl
  have earlier (x : State) : replyQueue (setPostList x p []) q = replyQueue x q := rfl
  by_cases same : q = p
  · subst same
    rw [freeList_setFreeList_self, post, postList_setPostList_self, queue,
      replyQueue_setReplyQueue_self]
    simp
  · have other : p ≠ q := Ne.symm same
    rw [freeList_setFreeList_other _ p q _ other, free, post,
      postList_setPostList_other _ p q _ other, queue,
      replyQueue_setReplyQueue_other _ p q _ other, earlier]
    simp [same]

theorem frameOf_reset (s : State) (p : PortId) (mine : List FrameId) (j : FrameId) :
    frameOf (setFreeList (setReplyQueue (setPostList s p []) p []) p mine) j = frameOf s j := rfl

theorem state_resetFrames (p : PortId) (s : State) (j : FrameId) :
    (frameOf (resetFrames p s) j).state =
      if ownerOf s j = some p then .free else (frameOf s j).state := by
  obtain ⟨_, _, _, _, frames⟩ := requestsDiscarded_kept p s
  rw [resetFrames_eq, frameOf_reset, (frames j).1, frameOf_framesFreed]
  split <;> rfl

theorem ownerOf_resetFrames (p : PortId) (s : State) (j : FrameId) :
    ownerOf (resetFrames p s) j = ownerOf s j := by
  have moved := requestsDiscarded_moved p s
  have lists (x : State) (mine : List FrameId) :
      ownerOf (setFreeList (setReplyQueue (setPostList x p []) p []) p mine) j = ownerOf x j := rfl
  rw [resetFrames_eq, lists, moved.ownerOf_eq]

theorem lists_resetFrames (p q : PortId) (s : State) :
    freeList (resetFrames p s) q = (if q = p then portFrames s.pool.shares p else freeList s q) ∧
      postList (resetFrames p s) q = (if q = p then [] else postList s q) ∧
      replyQueue (resetFrames p s) q = (if q = p then [] else replyQueue s q) := by
  have moved := requestsDiscarded_moved p s
  obtain ⟨_, _, _, queues, _⟩ := requestsDiscarded_kept p s
  have reply : replyQueue (requestsDiscarded p s) q = replyQueue s q := by
    simp [replyQueue, queues.trans (replyQueues_setFrameStates _ s)]
  have lists := lists_reset (requestsDiscarded p s) p q (portFrames s.pool.shares p)
  rw [freeList_of_pool moved.2.2.2.1, postList_of_pool moved.2.2.2.2, reply] at lists
  rwa [resetFrames_eq]

theorem ListedBut.resetFrames {s : State} (h : ListedBut none s) (p : PortId) :
    ListedBut none (resetFrames p s) := by
  obtain ⟨lists, unowned⟩ := h
  have stands {q : PortId} (other : q ≠ p) {st : FrameState} {l : List FrameId}
      (old : listsBut none s q st l) : listsBut none (Machine.resetFrames p s) q st l := by
    refine old.keep fun j => ?_
    rw [ownerOf_resetFrames, state_resetFrames]
    refine and_congr_right fun mine => ?_
    rw [if_neg]
    intro theirs
    exact other (Option.some.inj (mine.symm.trans theirs))
  have empty {st : FrameState} (differs : st ≠ .free) :
      listsBut none (Machine.resetFrames p s) p st [] := by
    refine ⟨List.nodup_nil, fun j => ⟨fun mem => (nomatch mem), fun now => ?_⟩⟩
    rw [ownerOf_resetFrames, state_resetFrames] at now
    rw [if_pos now.1] at now
    exact absurd now.2.1.symm differs
  refine ⟨fun q => ?_, fun j none => ?_⟩
  · obtain ⟨freeQ, postQ, replyQ⟩ := lists q
    obtain ⟨freeNow, postNow, replyNow⟩ := lists_resetFrames p q s
    rw [freeNow, postNow, replyNow]
    by_cases same : q = p
    · subst same
      rw [if_pos rfl, if_pos rfl, if_pos rfl]
      refine ⟨⟨portFrames_nodup _ q, fun j => ?_⟩, empty (by simp), empty (by simp)⟩
      rw [mem_portFrames, ownerOf_resetFrames, state_resetFrames]
      constructor
      · intro mine
        have mine : ownerOf s j = some q := mine
        simp [mine]
      · exact fun now => now.1
    · rw [if_neg same, if_neg same, if_neg same]
      exact ⟨stands same freeQ, stands same postQ, stands same replyQ⟩
  · rw [ownerOf_resetFrames] at none
    rw [state_resetFrames, none]
    simpa using unowned j none

/-! ## The accepted exit -/

/-- R173: what an accepted exit may rely on. -/
theorem failingCheck_none {s : State} {setup : Setup} (h : failingCheck s setup = none) :
    checkShareChange s setup = true := by
  unfold failingCheck at h
  dsimp only at h
  split at h
  · cases h
  split at h
  · cases h
  split at h
  · cases h
  split at h
  · cases h
  split at h
  · cases h
  split at h
  · cases h
  · rename_i passes
    simpa using passes

/-- R61, R173: the shares of the image are those in force, or every frame is FREE. -/
def sharesMayChange (s : State) : Prop :=
  copiedShares s.store.image = s.pool.shares ∨ ∀ i, (frameOf s i).state = .free

theorem sharesMayChange_of_exit {s : State} {setup : Setup} (listed : FramesListed s)
    (inside : s.store.setup = some setup) (passes : failingCheck s setup = none) :
    sharesMayChange s := by
  obtain ⟨copied, _, unowned⟩ := listed
  have shares : s.pool.shares = copiedShares setup.entrySnapshot := by
    unfold sharesCopied at copied
    rw [inside] at copied
    exact copied.2
  rcases (checkShareChange_iff s setup).mp (failingCheck_none passes) with same | free
  · exact .inl (same.trans shares.symm)
  · refine .inr fun i => ?_
    cases owner : ownerOf s i with
    | none => exact unowned i owner
    | some p => exact free i (by simp [owner])

theorem ListedBut.exitShares {s : State} (h : ListedBut none s) (may : sharesMayChange s) :
    ListedBut none (exitShares s) := by
  unfold Machine.exitShares
  dsimp only
  split
  · exact h
  · rename_i changed
    have free : ∀ i, (frameOf s i).state = .free := may.resolve_left changed
    obtain ⟨lists, unowned⟩ := h
    have never {t : State} (frames : ∀ i, frameOf t i = frameOf s i) {q : PortId}
        {st : FrameState} (differs : st ≠ .free) {l : List FrameId}
        (old : listsBut none s q st l) : listsBut none t q st l := by
      refine old.keep fun j => ?_
      rw [frames j]
      exact ⟨fun now => absurd (now.2.1.symm.trans (free j)) differs,
        fun now => absurd (now.2.1.symm.trans (free j)) differs⟩
    refine ⟨fun q => ?_, fun i _ => free i⟩
    obtain ⟨_, postQ, replyQ⟩ := lists q
    refine ⟨?_, never (t := s.setPool { s.pool with
        shares := copiedShares s.store.image
        freeLists := Vector.ofFn (portFrames (copiedShares s.store.image)) })
      (fun _ => rfl) (by simp) postQ, never (t := s.setPool { s.pool with
        shares := copiedShares s.store.image
        freeLists := Vector.ofFn (portFrames (copiedShares s.store.image)) })
      (fun _ => rfl) (by simp) replyQ⟩
    have list : freeList (s.setPool { s.pool with
        shares := copiedShares s.store.image
        freeLists := Vector.ofFn (portFrames (copiedShares s.store.image)) }) q =
        portFrames (copiedShares s.store.image) q := by
      simp [freeList]
    rw [list]
    refine ⟨portFrames_nodup _ q, fun i => ?_⟩
    rw [mem_portFrames]
    exact ⟨fun mine => ⟨mine, free i, by simp⟩, fun now => now.1⟩

theorem exitShares_shares (s : State) :
    (exitShares s).pool.shares = copiedShares s.store.image := by
  unfold exitShares
  dsimp only
  split
  · rename_i same
    exact same.symm
  · rfl

/-- R41: the table once an accepted exit has copied the records, before any request is withdrawn. -/
def recordsCopied (s : State) : State :=
  s.setTable { records := Vector.ofFn (copiedRecord s.store.image)
               grants := each s.table.grants (exitGrant s) }

theorem exitSources_eq (s : State) : exitSources s =
    endRequests (fun _ => .withdrawn) (recordsCopied s) (isWithdrawn s) := rfl

theorem frameOf_recordsCopied (s : State) (i : FrameId) :
    frameOf (recordsCopied s) i = frameOf s i := rfl

theorem ListedBut.exitSources {s : State} (h : ListedBut none s) :
    ListedBut none (exitSources s) := by
  have copied : ListedBut none (recordsCopied s) := h
  exact copied.endRequests _ _

theorem sharesMayChange.exitSources {s : State} (h : sharesMayChange s) :
    sharesMayChange (exitSources s) := by
  have shares : (Machine.exitSources s).pool.shares = s.pool.shares :=
    (endRequests_moved _ (recordsCopied s) _).2.2.1
  rcases h with same | free
  · refine .inl ?_
    rw [exitSources_store, shares, same]
  · refine .inr fun i => ?_
    rw [exitSources_eq, frameOf_endRequests, if_neg, frameOf_recordsCopied, free i]
    rintro ⟨_, held⟩
    exact not_listed_of_isHeld held _ (.inl rfl) (free i)

theorem exitLines_kept (s : State) : ListsAlike s (exitLines s) := by
  have effects (before : State) (l : Line) (x : State) : poolKept x (lineEffects before l x) := by
    unfold lineEffects
    split
    · cases l <;> exact endGrants_kept _ x _
    · exact .refl x
  have lines : ListsAlike s (s.setSafety { s.safety with
      x0 := exitLine s.store.image .x0 s.safety.x0, x1 := exitLine s.store.image .x1 s.safety.x1 }) :=
    .of_pool rfl
  have both := ((effects s .x0 (s.setSafety { s.safety with
      x0 := exitLine s.store.image .x0 s.safety.x0
      x1 := exitLine s.store.image .x1 s.safety.x1 })).trans (effects s .x1 _)).listsAlike
  exact ⟨both.shares, both.freeLists, both.postLists, both.replyQueues, both.states⟩

/-- R174: the state between an exit's copies to the scanner, the sources and the pool and those to the
other blocks. -/
def poolCopied (s : State) : State :=
  exitShares (exitSources (s.setScanner
    { s.scanner with probes := each s.scanner.probes (exitProbe s.store.image) }))

theorem ListedBut.exitCopies {s : State} (h : ListedBut none s) (may : sharesMayChange s) :
    ListedBut none (exitCopies s) := by
  have scanned : ListedBut none (s.setScanner
      { s.scanner with probes := each s.scanner.probes (exitProbe s.store.image) }) := h
  have mayStill : sharesMayChange (s.setScanner
      { s.scanner with probes := each s.scanner.probes (exitProbe s.store.image) }) := may
  have pool : ListedBut none (poolCopied s) := scanned.exitSources.exitShares mayStill.exitSources
  have planned : ListedBut none ((poolCopied s).setPlanner { (poolCopied s).planner with
      periodLength := periodLength s.store.image
      lateThreshold := lateThreshold s.store.image }) := pool.alike (.of_pool rfl)
  have lines := planned.alike (exitLines_kept _)
  refine lines.alike (.of_pool ?_)
  simp only [Machine.exitCopies, State.setPorts_pool, State.setCycle_pool]
  rfl

theorem exitLines_moved (s : State) : SourcesMoved (s.setSafety { s.safety with
    x0 := exitLine s.store.image .x0 s.safety.x0
    x1 := exitLine s.store.image .x1 s.safety.x1 }) (exitLines s) :=
  (lineEffects_moved s .x0 _).trans (lineEffects_moved s .x1 _)

theorem exitCopies_shares (s : State) :
    (exitCopies s).pool.shares = copiedShares s.store.image := by
  have lines (x : State) : (exitLines x).pool.shares = x.pool.shares := (exitLines_moved x).2.2.1
  simp only [exitCopies, State.setPorts_pool, State.setCycle_pool, lines, State.setPlanner_pool,
    exitShares_shares, exitSources_store, State.setScanner_store]

theorem ListedBut.exitTaken {s : State} (h : ListedBut none s) (may : sharesMayChange s) :
    ListedBut none (exitTaken s) := by
  have modes : ListedBut none (changeModes (copiedModes s.store.image) s) := h
  exact modes.exitCopies may

theorem exitTaken_shares (s : State) : (exitTaken s).pool.shares = copiedShares s.store.image :=
  exitCopies_shares (changeModes (copiedModes s.store.image) s)

/-! ## Fresh pools -/

theorem ListedBut.of_freshPool {s : State} {img : Image} (h : s.pool = freshPool img) :
    ListedBut none s := by
  have state (i : FrameId) : (frameOf s i).state = .free := by
    simp [frameOf, h, freshPool, clearedFrame]
  have never {q : PortId} {st : FrameState} (differs : st ≠ .free) : listsBut none s q st [] :=
    ⟨List.nodup_nil, fun i => ⟨fun mem => (nomatch mem), fun now =>
      absurd (now.2.1.symm.trans (state i)) differs⟩⟩
  refine ⟨fun q => ⟨?_, ?_, ?_⟩, fun i _ => state i⟩
  · have list : freeList s q = portFrames (copiedShares img) q := by simp [freeList, h, freshPool]
    have owner (i : FrameId) : ownerOf s i = frameOwner (copiedShares img) i := by
      simp [ownerOf, h, freshPool]
    rw [list]
    refine ⟨portFrames_nodup _ q, fun i => ?_⟩
    rw [mem_portFrames, owner]
    exact ⟨fun mine => ⟨mine, state i, by simp⟩, fun now => now.1⟩
  · have list : postList s q = [] := by simp [postList, h, freshPool]
    rw [list]
    exact never (by simp)
  · have list : replyQueue s q = [] := by simp [replyQueue, h, freshPool]
    rw [list]
    exact never (by simp)

/-! ## The shares in force -/

/-- The store, the part and the shares are all that `sharesCopied` reads. -/
theorem sharesCopied.congr {s t : State} (h : sharesCopied s) (store : t.store = s.store)
    (part : t.part = s.part) (shares : t.pool.shares = s.pool.shares) : sharesCopied t := by
  simpa only [sharesCopied, isRunning, store, part, shares] using h

theorem sharesCopied_outside {s : State} (outside : s.store.setup = none) :
    sharesCopied s ↔ s.pool.shares = copiedShares s.store.image := by
  unfold sharesCopied
  rw [outside]

/-- R61, R175: a store that stands or is restored goes with the shares in force. -/
theorem sharesCopied.standsOrRestored {s t : State} (h : sharesCopied s)
    (store : storeStandsOrRestored s t) (kept : EventKept s t) : sharesCopied t := by
  rcases store with store | store
  · exact h.congr store kept.part kept.shares
  · cases inside : s.store.setup with
    | none =>
      refine h.congr ?_ kept.part kept.shares
      rw [store, storeRestored, inside]
    | some setup =>
      have shares : s.pool.shares = copiedShares setup.entrySnapshot := by
        unfold sharesCopied at h
        rw [inside] at h
        exact h.2
      rw [sharesCopied_outside (by rw [store, storeRestored, inside]), kept.shares, store,
        storeRestored, inside]
      exact shares

theorem shareField_mem (p : PortId) :
    (⟨0x044 + p.val, .byte 0 16, .setupOnly, 12⟩ : Field) ∈ fieldTable := by
  revert p
  decide +kernel

/-- R169: outside SETUP a permitted write reaches no setup-only field. -/
theorem not_reached_of_setupOnly {s : State} {p : PortId} {start count : Nat} {f : Field}
    (permitted : writeRefusal s p start count = none) (outside : s.store.setup = none)
    (mem : f ∈ fieldTable) (access : f.access = .setupOnly) :
    fieldReached start count f = false := by
  refine Classical.byContradiction fun reached => ?_
  have found : f ∈ reachedFields start count := by
    unfold reachedFields
    exact List.mem_filter.mpr ⟨mem, by simpa using reached⟩
  have refusal := List.findSome?_eq_none_iff.mp permitted f found
  simp [fieldRefusal, access, setupHolder, inSetup, outside] at refusal

/-- R61, R169: outside SETUP no permitted write changes the shares of the image. -/
theorem copiedShares_writtenImage {s : State} {p : PortId} {start : Nat} {data : List Byte}
    (permitted : writeRefusal s p start data.length = none) (outside : s.store.setup = none) :
    copiedShares (writtenImage s.store.image start data) = copiedShares s.store.image := by
  apply Vector.ext
  intro i below
  have mem := shareField_mem ⟨i, below⟩
  have found := (fieldAt_of_mem _ mem).1
  have standing := imageByte_writtenImage_standing s.store.image start data (0x044 + i) _
    (by omega) found (not_reached_of_setupOnly permitted outside mem rfl)
  simp [copiedShares, share, imageU8, standing]

/-! ## Every step -/

theorem frames_of_filled (s : State) (i : FrameId) (f : Request → Request) :
    ListsAlike s (modFrame s i fun fr => { fr with request := f fr.request }) := by
  refine ⟨rfl, rfl, rfl, rfl, fun j st _ => ?_⟩
  rw [state_modFrame]
  split
  · rename_i e
    rw [e]
  · rfl

theorem storeWritten_pool (start : Nat) (data : List Byte) (s : State) :
    (storeWritten start data s).pool = s.pool := by
  obtain ⟨x, alerts, eq, _⟩ := storeWritten_eq start data s
  rw [eq]
  rfl

theorem Served.listed {p : PortId} {s t : State} (h : Served p s t) (listed : FramesListed s) :
    ListedBut none t := by
  have lists := ((framesListed_iff s).mp listed).2
  cases h
  case taken i rest head => exact lists.taken head
  case filled i offset data state =>
    exact lists.alike (frames_of_filled s i fun r => writeRequest r offset data)
  case posted i owner state => exact lists.posted owner state
  case freed i owner state => exact lists.freed owner state
  case collected i rest head => exact lists.collected head
  case written n data permitted =>
    exact (lists.alike (imageWritten_poolKept _ data s).listsAlike).alike (.of_pool rfl)
  case entered =>
    obtain ⟨alerts, eq⟩ := setupEntered_blocks p s
    rw [eq]
    exact (lists.alike (entryRevoked_poolKept p s).listsAlike).alike (.of_pool rfl)
  case exited setup inside passes =>
    rw [setupExited_eq]
    exact (lists.exitTaken (sharesMayChange_of_exit listed inside passes)).endSetup
  case restored => exact lists.endSetupRestoring
  case portReset => exact (lists.resetFrames p).alike (.of_pool rfl)
  all_goals exact lists

theorem Served.sharesCopied {p : PortId} {s t : State} (h : Served p s t)
    (running : isRunning s = true) (copied : sharesCopied s) : sharesCopied t := by
  cases h
  case written n data permitted =>
    have shares : (imageWritten (portOf s p).selector data s).pool.shares = s.pool.shares :=
      (imageWritten_poolKept _ data s).1
    show Machine.sharesCopied (imageWritten _ data s)
    cases inside : s.store.setup with
    | none =>
      rw [sharesCopied_outside (by rw [imageWritten_store]; exact inside), shares,
        imageWritten_store, copiedShares_writtenImage permitted inside]
      exact (sharesCopied_outside inside).mp copied
    | some setup =>
      have part : isRunning (imageWritten (portOf s p).selector data s) = isRunning s := by
        simp [isRunning, imageWritten_part]
      unfold Machine.sharesCopied at copied ⊢
      rw [inside] at copied
      rw [imageWritten_store]
      simp only [inside, part, shares]
      exact copied
  case entered outside =>
    have setup : s.store.setup = none := by simpa [inSetup] using outside
    have part : isRunning (setupEntered p s) = isRunning s := by simp [isRunning, setupEntered_part]
    unfold Machine.sharesCopied
    rw [setupEntered_store]
    refine ⟨part.trans running, ?_⟩
    obtain ⟨alerts, eq⟩ := setupEntered_blocks p s
    rw [eq]
    show (entryRevoked p s).pool.shares = copiedShares s.store.image
    rw [(entryRevoked_poolKept p s).1]
    exact (sharesCopied_outside setup).mp copied
  case exited setup inside passes =>
    rw [sharesCopied_outside (by rw [setupExited_store]), setupExited_store, setupExited_eq,
      (endSetup_eventKept _).shares, exitTaken_shares]
  case restored =>
    exact copied.standsOrRestored (.inr (endSetupRestoring_store s)) (endSetupRestoring_eventKept s)
  case portReset =>
    refine copied.congr ?_ ?_ ?_
    · rw [modPort_store, emptyAlerts_store, resetFrames_store]
    · obtain ⟨pool, table, eq, _⟩ := resetFrames_blocks p s
      rw [eq]
      rfl
    · exact (requestsDiscarded_moved p s).2.2.1
  all_goals exact copied

theorem setLine_pool (s : State) (l : Line) (x : InputLine) : (setLine s l x).pool = s.pool := by
  rw [setLine_eq]
  rfl

theorem lineEffects_kept (before : State) (l : Line) (s : State) :
    poolKept s (lineEffects before l s) := by
  unfold lineEffects
  split
  · cases l <;> exact endGrants_kept _ s _
  · exact .refl s

theorem takeLevel_alike (l : Line) (level : Level) (s : State) :
    ListsAlike s (takeLevel l level s) := by
  have kept := (lineEffects_kept s l
    (setLine s l { lineOf s l with settled := level, settling := none })).listsAlike
  have pool := setLine_pool s l { lineOf s l with settled := level, settling := none }
  have states := kept.states
  simp only [frameOf, pool] at states
  exact ⟨kept.shares.trans (congrArg (·.shares) pool),
    kept.freeLists.trans (congrArg (·.freeLists) pool),
    kept.postLists.trans (congrArg (·.postLists) pool),
    kept.replyQueues.trans (congrArg (·.replyQueues) pool), states⟩

theorem applyPlan_kept (plan : Plan) (s : State) : poolKept s (applyPlan plan s) := by
  have rotations (winners : List GrantEntry) (x : State) :
      poolKept x (winners.foldl (fun t e => rotateRanks t e.slot) x) := by
    refine poolKept.foldl _ (fun u e => ?_) winners x
    exact ⟨rfl, rfl, rfl, rfl, fun _ => ⟨rfl, rfl⟩⟩
  unfold applyPlan
  dsimp only
  refine poolKept.trans ?_ (poolKept.refl (publish plan.figures _))
  exact (poolKept.foldl takeGrant takeGrant_kept _ s).trans
    ((endGrants_kept .plan _ _).trans (rotations _ _))

theorem beginMarkedLatePlan_pool (s : State) : (beginMarkedLatePlan s).pool = s.pool := by
  rw [beginMarkedLatePlan_eq]
  rfl

theorem Effect.listed {s t : State} (h : Effect s t) (listed : FramesListed s) :
    ListedBut none t := by
  have lists := ((framesListed_iff s).mp listed).2
  cases h
  case reset => exact .of_freshPool (img := factoryImage) rfl
  case loaded =>
    obtain ⟨alerts, eq⟩ := settledLoad_eq s
    have fresh : ListedBut none (beginScan (settledLoad s)) :=
      .of_freshPool (img := imageToLoad s.store.page) (by rw [eq]; rfl)
    exact fresh.completeIfEmpty
  case scanStarted => exact ListedBut.completeIfEmpty (s := beginScan s) lists
  case readEnded => exact lists.readEnded _ _
  case periodStarted => exact lists.periodStart false
  case planCompleted plan _ =>
    refine ListedBut.alike ?_ (.of_pool (beginMarkedLatePlan_pool _))
    exact (lists.alike (applyPlan_kept plan s).listsAlike).alike (.of_pool rfl)
  case planDropped => exact lists.alike (.of_pool (beginMarkedLatePlan_pool _))
  case intake p _ _ => exact lists.takeThenPlan p
  case pinSet l level => exact lists.alike (.of_pool (setLine_pool s l _))
  case pinChanged l level _ =>
    rcases pinChanged_cases l level s with ⟨x, eq⟩ | ⟨x, eq⟩ <;> rw [eq]
    · exact lists.alike (.of_pool (setLine_pool s l x))
    · exact (lists.alike (.of_pool (setLine_pool s l x))).alike (takeLevel_alike l level _)
  case settled l level => exact lists.alike (takeLevel_alike l level s)
  case served p r t running body =>
    exact (body.listed (s := heard p s) listed).alike (.of_pool rfl)
  all_goals exact lists

theorem Effect.sharesCopied {s t : State} (h : Effect s t) (copied : sharesCopied s) :
    sharesCopied t := by
  cases h
  case reset => exact (sharesCopied_outside rfl).mpr rfl
  case loaded halted =>
    have setup : s.store.setup = none := by
      cases inside : s.store.setup with
      | none => rfl
      | some setup =>
        unfold Machine.sharesCopied at copied
        rw [inside] at copied
        rw [halted] at copied
        exact absurd copied.1 (by simp)
    have settled : Machine.sharesCopied (beginScan (settledLoad s)) := by
      have store : (beginScan (settledLoad s)).store = _ := settledLoad_store s
      rw [sharesCopied_outside (by rw [store]; exact setup), store]
      obtain ⟨alerts, eq⟩ := settledLoad_eq s
      rw [eq]
      rfl
    exact settled.standsOrRestored (completeIfEmpty_standsOrRestored _) (completeIfEmpty_eventKept _)
  case scanStarted =>
    exact sharesCopied.standsOrRestored (s := beginScan s) copied
      (completeIfEmpty_standsOrRestored _) (completeIfEmpty_eventKept _)
  case readEnded =>
    exact copied.standsOrRestored (readEnded_standsOrRestored s _ _) (readEnded_eventKept s _ _)
  case periodStarted =>
    exact copied.standsOrRestored (periodStart_standsOrRestored false s)
      (periodStart_eventKept false s)
  case planCompleted plan _ =>
    have kept := (applyPlan_eventKept plan s).trans ((planEnded_eventKept _).trans
      (beginMarkedLatePlan_eventKept _))
    refine copied.congr ?_ kept.part kept.shares
    rw [beginMarkedLatePlan_store]
    exact applyPlan_store plan s
  case planDropped =>
    rw [beginMarkedLatePlan_eq]
    exact copied
  case intake p _ _ =>
    have heads (x : State) (q : PortId) : (settleHead q x).pool.shares = x.pool.shares := by
      unfold settleHead
      split
      · rfl
      · exact (settleFrame_moved _ q _).2.2.1
    have folded (ports : List PortId) (x : State) :
        (ports.foldl (fun t q => settleHead q t) x).pool.shares = x.pool.shares := by
      induction ports generalizing x with
      | nil => rfl
      | cons q rest ih => exact (ih _).trans (heads x q)
    refine copied.congr (takeThenPlan_store p s) (takeThenPlan_part p s) ?_
    unfold takeThenPlan
    dsimp only
    split
    · split
      · rw [latePlanAsk_pool, latePlanAsk_pool, State.nextDraw_pool, folded, heads]
      · rw [latePlanAsk_pool, State.nextDraw_pool, folded, heads]
    · exact heads s p
  case pinSet l level => exact copied.congr (setLine_store s l _) (setLine_part s l _) (by rw [setLine_pool])
  case pinChanged l level _ =>
    refine copied.congr (pinChanged_store l level s) (pinChanged_part l level s) ?_
    rcases pinChanged_cases l level s with ⟨x, eq⟩ | ⟨x, eq⟩ <;> rw [eq]
    · rw [setLine_pool]
    · rw [(takeLevel_alike l level _).shares, setLine_pool]
  case settled l level =>
    exact copied.congr (takeLevel_store l level s) (takeLevel_part l level s)
      (takeLevel_alike l level s).shares
  case released part phase =>
    unfold Machine.sharesCopied at copied ⊢
    simpa [isRunning, phase] using copied
  case served p r t running body =>
    exact body.sharesCopied (s := heard p s) running copied
  all_goals exact copied

theorem Effect.framesListed {s t : State} (h : Effect s t) (listed : FramesListed s) :
    FramesListed t := by
  rw [framesListed_iff]
  exact ⟨h.sharesCopied ((framesListed_iff s).mp listed).1, h.listed listed⟩

/-- Settles O57: every operation that moves a frame between listed states moves its entry between the
lists, and the shares follow the image last copied. -/
theorem stepsKeepFramesListed : Obligations.StepsKeepFramesListed := fun _ _ listed next =>
  step_keeps (Inv := FramesListed) (fun _ _ h => h) (fun _ _ h effect => effect.framesListed h)
    listed next

end Sys2Proof.Machine
end

section
/-! SUPPORT. The grant records, the turn ranks and the requests held for slots through every step (R41,
R43 to R47, R52, R55, R56, R75, R79): each operation keeps a slot's record in form and its request matched
to its state. -/

namespace Sys2Proof.Machine

/-! ## One slot -/

/-- R43, R44: one grant record in form, under the owner of its slot. -/
def grantInForm (owner : Option PortId) (g : GrantRecord) : Prop :=
  (g.state = .unused ↔ owner = none) ∧ (g.state ≠ .running → g.power = 0) ∧
    (g.state = .resting ↔ 0 < g.restCount)

theorem grantsFormed_iff (s : State) :
    GrantsFormed s ↔ ∀ k, grantInForm (recordOf s k).owner (grantOf s k) := Iff.rfl

/-- R45: whether a HEAT or STANDING request is held, as far as the state of its source says. -/
def slotMatches (held : Bool) : GrantState → Prop
  | .unused => held = false
  | .idle => held = false
  | .waiting => held = true
  | .running => held = true
  | .resting => True

theorem requestsMatchSlots_iff (s : State) : RequestsMatchSlots s ↔
    (∀ i j k, heldSlot s i = some k → heldSlot s j = some k → i = j) ∧
      (∀ i k, heldSlot s i = some k →
        ∃ p, ownerOf s i = some p ∧ (recordOf s k).owner = some p) ∧
      ∀ k, slotMatches (heldFor s k).isSome (grantOf s k).state := by
  unfold RequestsMatchSlots
  refine and_congr_right fun _ => ?_
  have held (k : SlotId) : (∃ i, heldSlot s i = some k) ↔ (heldFor s k).isSome = true :=
    (heldFor_isSome s k).symm
  constructor
  · rintro ⟨owned, live⟩
    refine ⟨fun i k h => (owned i k h).1, fun k => ?_⟩
    have liveK := live k
    rw [held] at liveK
    have bare : (heldFor s k).isSome = true →
        (grantOf s k).state ≠ .idle ∧ (grantOf s k).state ≠ .unused := by
      rw [← held]
      rintro ⟨i, h⟩
      exact (owned i k h).2
    cases state : (grantOf s k).state <;> simp [slotMatches, state] at bare liveK ⊢ <;> assumption
  · rintro ⟨owned, states⟩
    refine ⟨fun i k h => ⟨owned i k h, ?_⟩, fun k live => ?_⟩
    · have isSome := (held k).mp ⟨i, h⟩
      have state := states k
      rw [isSome] at state
      constructor <;> intro e <;> simp [e, slotMatches] at state
    · rw [held]
      have state := states k
      rcases live with e | e <;> simpa [e, slotMatches] using state

section Slot
variable {owner : Option PortId} {g : GrantRecord}

theorem grantInForm.ended (h : grantInForm owner g) (running : g.state = .running) (minRest : Nat)
    (held : Bool) : grantInForm owner (endedGrant minRest held g) := by
  obtain ⟨unused, _, rest⟩ := h
  have count : g.restCount = 0 := by simpa [running] using rest
  have owned : owner ≠ none := by simpa [running] using unused
  unfold endedGrant
  split
  · rename_i positive
    exact ⟨by simp [owned], by simp, by simp; omega⟩
  · cases held <;> simp [grantInForm, owned, count]

theorem grantInForm.released (h : grantInForm owner g) (waiting : g.state = .waiting) :
    grantInForm owner { g with state := .idle } := by
  simpa [grantInForm, waiting] using h

theorem grantInForm.accepted (h : grantInForm owner g) : grantInForm owner
    { g with state := if g.state = .idle then .waiting else g.state, requestGranted := false } := by
  by_cases idle : g.state = .idle
  · simpa [grantInForm, idle] using h
  · simpa [grantInForm, idle] using h

theorem grantInForm.counted (h : grantInForm owner g) (held : Bool) :
    grantInForm owner (countedGrant held g) := by
  unfold countedGrant
  cases state : g.state <;> dsimp only
  case resting =>
    have owned : owner ≠ none := by simpa [grantInForm, state] using h.1
    have power : g.power = 0 := h.2.1 (by simp [state])
    split
    · cases held <;> simp [grantInForm, owned, power]
    · simpa [grantInForm, state, owned, power] using by omega
  all_goals simpa [grantInForm, state] using h

/-- R46: a grant taken by a source that waits or runs. -/
theorem grantInForm.granted (h : grantInForm owner g)
    (live : g.state = .waiting ∨ g.state = .running) {t : GrantRecord} (state : t.state = .running)
    (rest : t.restCount = g.restCount) : grantInForm owner t := by
  obtain ⟨unused, _, count⟩ := h
  have both := And.intro unused count
  rcases live with live | live <;> simpa [grantInForm, state, rest, live] using both

theorem grantInForm.cleared (st : GrantState) (rank : Nat)
    (state : (st = .idle ∧ owner ≠ none) ∨ (st = .unused ∧ owner = none)) :
    grantInForm owner (clearedGrant st rank) := by
  rcases state with ⟨rfl, owned⟩ | ⟨rfl, bare⟩
  · simp [grantInForm, clearedGrant, owned]
  · simp [grantInForm, clearedGrant, bare]

theorem slotMatches_endedGrant (minRest : Nat) (held : Bool) (g : GrantRecord) :
    slotMatches held (endedGrant minRest held g).state := by
  unfold endedGrant
  split
  · trivial
  · cases held <;> rfl

theorem slotMatches_countedGrant {held : Bool} (h : slotMatches held g.state) :
    slotMatches held (countedGrant held g).state := by
  unfold countedGrant
  cases state : g.state <;> simp only [state] at h ⊢
  case resting =>
    split
    · cases held <;> rfl
    · simp [slotMatches]
  all_goals simpa [slotMatches] using h

/-- No request, and a source that neither waits nor runs. -/
theorem slotMatches_false {st : GrantState} (stopped : st ≠ .waiting ∧ st ≠ .running) :
    slotMatches false st := by
  obtain ⟨waiting, running⟩ := stopped
  cases st <;> simp_all [slotMatches]

end Slot

/-! ## From one state to another -/

/-- The grant records stay in form, the ranks a permutation, and, under a condition on the lists, each
request matched to its slot. -/
structure GrantsKept (listed : Prop) (s t : State) : Prop where
  formed : GrantsFormed s → GrantsFormed t
  ranks : RanksPermuted s → RanksPermuted t
  matched : listed → GrantsFormed s → RequestsMatchSlots s → RequestsMatchSlots t

namespace GrantsKept
variable {listed : Prop} {s t u : State}

theorem refl (s : State) : GrantsKept listed s s := ⟨id, id, fun _ _ h => h⟩

theorem trans (h : GrantsKept listed s t) (k : GrantsKept listed t u) : GrantsKept listed s u :=
  ⟨fun f => k.formed (h.formed f), fun r => k.ranks (h.ranks r),
    fun l f m => k.matched l (h.formed f) (h.matched l f m)⟩

theorem foldl {α : Type} (f : State → α → State) (step : ∀ x a, GrantsKept listed x (f x a))
    (l : List α) (s : State) : GrantsKept listed s (l.foldl f s) := by
  induction l generalizing s with
  | nil => exact refl s
  | cons a rest ih => exact (step s a).trans (ih (f s a))

end GrantsKept

theorem RanksPermuted.congr {s t : State} (h : RanksPermuted s)
    (ranks : ∀ k, (grantOf t k).rank = (grantOf s k).rank) : RanksPermuted t := by
  simpa only [RanksPermuted, ranks] using h

section Ended
variable {listed : Prop} {s t : State}

/-- R45, R80: some requests have ended. A source that lost its request neither waits nor runs; every
other stands where its request leaves it. -/
theorem GrantsKept.of_ended (ended : FrameId → Bool)
    (held : ∀ i, heldSlot t i = if ended i = true then none else heldSlot s i)
    (owners : ∀ i k, heldSlot t i = some k →
      ownerOf t i = ownerOf s i ∧ (recordOf t k).owner = (recordOf s k).owner)
    (form : ∀ k, grantInForm (recordOf s k).owner (grantOf s k) →
      grantInForm (recordOf t k).owner (grantOf t k))
    (ranks : ∀ k, (grantOf t k).rank = (grantOf s k).rank)
    (lost : ∀ i k, ended i = true → heldSlot s i = some k →
      (grantOf t k).state ≠ .waiting ∧ (grantOf t k).state ≠ .running)
    (stands : ∀ k, (∀ i, ended i = true → heldSlot s i ≠ some k) →
      slotMatches (heldFor s k).isSome (grantOf s k).state →
      slotMatches (heldFor s k).isSome (grantOf t k).state) :
    GrantsKept listed s t := by
  refine ⟨fun formed k => form k (formed k), fun h => h.congr ranks, fun _ _ matched => ?_⟩
  rw [requestsMatchSlots_iff] at matched ⊢
  obtain ⟨unique, owned, states⟩ := matched
  have earlier {i : FrameId} {k : SlotId} (h : heldSlot t i = some k) :
      ended i = false ∧ heldSlot s i = some k := by
    rw [held] at h
    split at h
    · cases h
    · exact ⟨by simpa using ‹¬ended i = true›, h⟩
  refine ⟨fun i j k hi hj => unique i j k (earlier hi).2 (earlier hj).2, fun i k h => ?_,
    fun k => ?_⟩
  · obtain ⟨ownerI, ownerK⟩ := owners i k h
    rw [ownerI, ownerK]
    exact owned i k (earlier h).2
  · by_cases some : ∃ i, ended i = true ∧ heldSlot s i = some k
    · obtain ⟨i, ends, slot⟩ := some
      have gone : (heldFor t k).isSome = false := by
        rw [Bool.eq_false_iff, ne_eq, heldFor_isSome]
        rintro ⟨j, h⟩
        obtain ⟨stays, slotJ⟩ := earlier h
        rw [unique i j k slot slotJ, stays] at ends
        cases ends
      rw [gone]
      exact slotMatches_false (lost i k ends slot)
    · have untouched (i : FrameId) (ends : ended i = true) : heldSlot s i ≠ Option.some k :=
        fun slot => some ⟨i, ends, slot⟩
      have same : (heldFor t k).isSome = (heldFor s k).isSome := by
        rw [Bool.eq_iff_iff, heldFor_isSome, heldFor_isSome]
        refine exists_congr fun i => ⟨fun h => (earlier h).2, fun h => ?_⟩
        rw [held, if_neg fun ends => untouched i ends h]
        exact h
      rw [same]
      exact stands k untouched (states k)

/-- Every request stays held; each record moves as its own request allows. -/
theorem GrantsKept.of_grants (held : ∀ i, heldSlot t i = heldSlot s i)
    (owners : ∀ i, ownerOf t i = ownerOf s i) (records : ∀ k, recordOf t k = recordOf s k)
    (form : ∀ k owner, grantInForm owner (grantOf s k) → grantInForm owner (grantOf t k))
    (ranks : ∀ k, (grantOf t k).rank = (grantOf s k).rank)
    (stands : ∀ k, slotMatches (heldFor s k).isSome (grantOf s k).state →
      slotMatches (heldFor s k).isSome (grantOf t k).state) : GrantsKept listed s t :=
  .of_ended (fun _ => false) (fun i => by rw [held]; simp)
    (fun i k _ => ⟨owners i, by rw [records]⟩) (fun k h => by rw [records]; exact form k _ h) ranks
    (fun _ _ ends => nomatch ends) fun k _ => stands k

/-- The table stands, and, under the condition, so do the held requests and their owners. -/
theorem GrantsKept.of_table (table : t.table = s.table)
    (held : listed → ∀ i, heldSlot t i = heldSlot s i)
    (owners : listed → ∀ i k, heldSlot s i = some k → ownerOf t i = ownerOf s i) :
    GrantsKept listed s t := by
  have grants (k : SlotId) : grantOf t k = grantOf s k := by simp [grantOf, table]
  have records (k : SlotId) : recordOf t k = recordOf s k := by simp [recordOf, table]
  refine ⟨fun h k => ?_, fun h => h.congr fun k => by rw [grants], fun l f m => ?_⟩
  · rw [records, grants]
    exact h k
  · refine (GrantsKept.of_ended (listed := True) (fun _ => false) (fun i => ?_) (fun i k h => ?_)
      (fun k h => ?_) (fun k => by rw [grants]) (fun _ _ ends => nomatch ends)
      fun k _ h => ?_).matched trivial f m
    · rw [held l]; simp
    · rw [held l] at h
      exact ⟨owners l i k h, by rw [records]⟩
    · rw [records, grants]
      exact h
    · rw [grants]
      exact h

/-- The table and the pool stand. -/
theorem GrantsKept.of_blocks (table : t.table = s.table) (pool : t.pool = s.pool) :
    GrantsKept listed s t :=
  .of_table table (fun _ i => heldSlot_of_frame s t i (by simp [frameOf, pool]))
    fun _ i _ _ => by simp [ownerOf, pool]

end Ended

/-! ## The operations -/

section Operations
variable {listed : Prop}

theorem endGrants_grantsKept (cause : EndCause) (s : State) (slots : List SlotId) :
    GrantsKept listed s (endGrants cause s slots) := by
  have kept := endGrants_kept cause s slots
  have moved := endGrants_moved cause s slots
  refine .of_grants kept.heldSlot_eq moved.ownerOf_eq moved.recordOf_eq (fun k owner h => ?_)
    (rank_endGrants cause slots s) fun k h => ?_
  · rw [grantOf_endGrants]
    split
    · rename_i ends
      exact h.ended (by simpa [isGrantRunning] using ends.2) _ _
    · exact h
  · rw [grantOf_endGrants]
    split
    · exact slotMatches_endedGrant _ _ _
    · exact h

theorem revokeAll_grantsKept (cause : EndCause) (s : State) :
    GrantsKept listed s (revokeAll cause s) := endGrants_grantsKept cause s _

/-- R80: no request of the set is held any more, and every other is. -/
theorem heldSlot_endRequests (outcome : FrameId → FrameOutcome) (s : State)
    (ended : FrameId → Bool) (i : FrameId) :
    heldSlot (endRequests outcome s ended) i = if ended i = true then none else heldSlot s i := by
  have frame := frameOf_endRequests outcome s ended i
  by_cases ends : ended i = true
  · rw [if_pos ends]
    by_cases held : isHeld s i = true
    · rw [if_pos ⟨ends, held⟩] at frame
      simp [heldSlot, isHeld, frame, reportedFrame]
    · rw [if_neg fun h => held h.2] at frame
      rw [heldSlot_of_frame s _ i frame]
      simp [heldSlot, held]
  · rw [if_neg fun h => ends h.1] at frame
    rw [if_neg ends, heldSlot_of_frame s _ i frame]

/-- R45, R80: requests end whose sources no longer run. -/
theorem endRequests_grantsKept (outcome : FrameId → FrameOutcome) (s : State)
    (ended : FrameId → Bool)
    (stopped : ∀ i k, ended i = true → heldSlot s i = some k → (grantOf s k).state ≠ .running) :
    GrantsKept listed s (endRequests outcome s ended) := by
  have moved := endRequests_moved outcome s ended
  refine .of_ended ended (heldSlot_endRequests outcome s ended)
    (fun i k _ => ⟨moved.ownerOf_eq i, by rw [moved.recordOf_eq]⟩) (fun k h => ?_) (fun k => ?_)
    (fun i k ends slot => ?_) fun k untouched h => ?_
  · rw [moved.recordOf_eq, grantOf_endRequests]
    split
    · rename_i released
      exact h.released (by simpa [isGrantWaiting] using released.2)
    · exact h
  · rw [grantOf_endRequests]
    split <;> rfl
  · rw [grantOf_endRequests]
    have notRunning := stopped i k ends slot
    by_cases waiting : isGrantWaiting s k = true
    · rw [if_pos ⟨⟨i, ends, slot⟩, waiting⟩]
      simp
    · rw [if_neg fun h => waiting h.2]
      exact ⟨by simpa [isGrantWaiting] using waiting, notRunning⟩
  · rw [grantOf_endRequests, if_neg]
    · exact h
    · rintro ⟨⟨i, ends, slot⟩, _⟩
      exact untouched i ends slot

/-- R47: a slot whose grant has been ended does not run. -/
theorem endGrants_stopped (cause : EndCause) (s : State) (slots : List SlotId) {k : SlotId}
    (mem : k ∈ slots) : (grantOf (endGrants cause s slots) k).state ≠ .running := by
  rw [grantOf_endGrants]
  by_cases running : isGrantRunning s k = true
  · rw [if_pos ⟨mem, running⟩]
    exact endedGrant_not_running _ _ _
  · rw [if_neg fun h => running h.2]
    simpa [isGrantRunning] using running

theorem endAtTarget_grantsKept (s : State) (slots : List SlotId) :
    GrantsKept listed s (endAtTarget s slots) := by
  refine (endGrants_grantsKept .target s slots).trans (endRequests_grantsKept _ _ _ ?_)
  intro i k heat slot
  refine endGrants_stopped .target s slots ?_
  rw [(endGrants_kept .target s slots).heldSlot_eq] at slot
  simp only [isHeatOf, slot, Bool.and_eq_true] at heat
  simpa using heat.2

theorem expireRequests_grantsKept (s : State) : GrantsKept listed s (expireRequests s) := by
  unfold expireRequests
  dsimp only
  rw [endGrantOfs_eq]
  refine (endGrants_grantsKept .requestEnd s _).trans (endRequests_grantsKept _ _ _ ?_)
  intro i k due slot
  rw [(endGrants_kept .requestEnd s _).heldSlot_eq] at slot
  refine endGrants_stopped .requestEnd s _ (List.mem_filterMap.mpr ⟨i, ?_, slot⟩)
  simpa using due

theorem countedState_ownerOf (first : Bool) (s : State) (i : FrameId) :
    ownerOf (countedState first s) i = ownerOf s i := by
  unfold countedState
  rw [(ageRequests_moved _).ownerOf_eq, (countSources_moved _).ownerOf_eq]
  rfl

theorem countedState_grantsKept (first : Bool) (s : State) :
    GrantsKept listed s (countedState first s) := by
  refine .of_grants (heldSlot_countedState first s) (countedState_ownerOf first s)
    (recordOf_countedState first s) (fun k owner h => ?_) (fun k => ?_) fun k h => ?_
  · rw [grantOf_countedState]
    exact h.counted _
  · rw [grantOf_countedState]
    unfold countedGrant
    cases (grantOf s k).state <;> try rfl
    dsimp only
    split <;> rfl
  · rw [grantOf_countedState]
    exact slotMatches_countedGrant h

theorem evaluateCycle_grantsKept (s : State) : GrantsKept listed s (evaluateCycle s) := by
  refine .of_blocks ?_ (evaluateCycle_pool s)
  rw [evaluateCycle_eq]
  rfl

theorem countSilence_grantsKept (s : State) : GrantsKept listed s (countSilence s) := by
  have ended : GrantsKept listed s (endGrants .portSilent s
      ((runningSlots s).filter fun k => ownerFallsSilent s k)) := endGrants_grantsKept _ _ _
  refine ended.trans (.of_blocks ?_ ?_)
  · unfold countSilence
    split <;> rfl
  · unfold countSilence
    split <;> rfl

theorem periodStartTaken_grantsKept (first : Bool) (s : State) :
    GrantsKept listed s (periodStartTaken first s) := by
  have counted : GrantsKept listed s (periodCounted first s) :=
    (countedState_grantsKept first s).trans ((endGrants_grantsKept .portSilent _ _).trans
      ((expireRequests_grantsKept _).trans
        ((evaluateCycle_grantsKept _).trans (countSilence_grantsKept _))))
  refine counted.trans (.of_blocks ?_ ?_)
  · rw [periodStartTaken_table]
    rfl
  · rw [periodStartTaken_eq, State.nextDraw_pool, planAtPeriodStart_pool, beforePlan_pool]

theorem neighboursTake_grantsKept (scan : Scan) (s : State) :
    GrantsKept listed s (neighboursTake scan s) := by
  unfold neighboursTake
  split
  · exact revokeAll_grantsKept _ s
  · have judged : GrantsKept listed s
        (s.setSafety { s.safety with overtemp := overtempAfter scan s }) := .of_blocks rfl rfl
    dsimp only
    split
    · exact judged.trans ((endAtTarget_grantsKept _ _).trans (revokeAll_grantsKept _ _))
    · exact judged.trans (endAtTarget_grantsKept _ _)

theorem scanApplied_grantsKept (scan : Scan) (s : State) :
    GrantsKept listed s (scanApplied scan s) := by
  obtain ⟨alerts, eq⟩ := scanApplied_eq scan s
  have applied : GrantsKept listed s (applyScan scan s) := .of_blocks rfl rfl
  refine applied.trans ((neighboursTake_grantsKept scan _).trans (.of_blocks ?_ ?_))
  · rw [eq, State.nextDraw_table, State.setAlerts_table]
  · rw [eq, State.nextDraw_pool, State.setAlerts_pool]

theorem periodStartOfR90_grantsKept (s : State) : GrantsKept listed s (periodStartOfR90 s) := by
  unfold periodStartOfR90
  split
  · exact periodStartTaken_grantsKept false s
  · exact .refl s

theorem firstPeriodStart_grantsKept (before s : State) :
    GrantsKept listed s (firstPeriodStart before s) := by
  unfold firstPeriodStart
  split
  · exact .refl s
  · exact periodStartTaken_grantsKept true s

theorem endSetup_grantsKept (s : State) : GrantsKept listed s (endSetup s) := by
  have left : GrantsKept listed s (setupLeft s) := .of_blocks rfl rfl
  refine left.trans ?_
  unfold endSetup
  dsimp only
  split
  · exact periodStartOfR90_grantsKept _
  · split
    · exact (scanApplied_grantsKept _ _).trans (periodStartOfR90_grantsKept _)
    · exact (periodStartOfR90_grantsKept _).trans
        ((scanApplied_grantsKept _ _).trans (firstPeriodStart_grantsKept _ _))

theorem endSetupRestoring_grantsKept (s : State) : GrantsKept listed s (endSetupRestoring s) := by
  cases inside : s.store.setup with
  | none =>
    rw [endSetupRestoring_outside inside]
    exact .refl s
  | some setup =>
    rw [endSetupRestoring_of_setup inside]
    refine GrantsKept.trans (.of_blocks ?_ ?_) (endSetup_grantsKept _)
    · obtain ⟨alerts, eq⟩ := imageRestored_eq setup s
      rw [eq]
      rfl
    · obtain ⟨alerts, eq⟩ := imageRestored_eq setup s
      rw [eq]
      rfl

theorem periodStart_grantsKept (first : Bool) (s : State) :
    GrantsKept listed s (periodStart first s) := by
  unfold periodStart
  dsimp only
  split
  · exact (periodStartTaken_grantsKept first s).trans (endSetupRestoring_grantsKept _)
  · exact periodStartTaken_grantsKept first s

theorem scanCompleted_grantsKept (scan : Scan) (s : State) :
    GrantsKept listed s (scanCompleted scan s) := by
  unfold scanCompleted
  dsimp only
  split
  · exact scanApplied_grantsKept scan s
  · exact (scanApplied_grantsKept scan s).trans (periodStart_grantsKept true _)

theorem completeIfEmpty_grantsKept (s : State) : GrantsKept listed s (completeIfEmpty s) := by
  unfold completeIfEmpty
  split
  · exact .refl s
  · exact scanCompleted_grantsKept _ s

theorem readEnded_grantsKept (s : State) (scan : Scan) (r : ReadResult) :
    GrantsKept listed s (readEnded s scan r) := by
  unfold readEnded
  dsimp only
  split
  · exact scanCompleted_grantsKept _ s
  · exact .of_blocks rfl rfl

/-! ## A plan's completion -/

theorem grantTakes_state {s : State} {e : GrantEntry} (h : grantTakes s e = true) :
    (grantOf s e.slot).state = if e.wasRunning then .running else .waiting := by
  simp only [grantTakes, Bool.and_eq_true] at h
  have seen := h.2
  split at seen
  · rename_i was
    simpa [isGrantRunning, was] using seen
  · rename_i was
    simpa [isGrantWaiting, was] using seen

theorem takeGrant_grantsKept (s : State) (e : GrantEntry) : GrantsKept listed s (takeGrant s e) := by
  have moved := takeGrant_moved s e
  refine .of_grants (takeGrant_kept s e).heldSlot_eq moved.ownerOf_eq moved.recordOf_eq
    (fun k owner h => ?_) (rank_takeGrant s e) fun k h => ?_ <;>
  by_cases same : e.slot = k
  · subst same
    rw [grantOf_takeGrant_self]
    split
    · rename_i takes
      have state := grantTakes_state takes
      split
      · rename_i was
        rw [if_pos was] at state
        exact h.granted (.inr state) state rfl
      · rename_i was
        rw [if_neg was] at state
        exact h.granted (.inl state) rfl rfl
    · exact h
  · rw [grantOf_takeGrant_other s e k same]
    exact h
  · subst same
    rw [grantOf_takeGrant_self]
    split
    · rename_i takes
      have state := grantTakes_state takes
      cases was : e.wasRunning <;> simp only [was] at state ⊢ <;>
        simpa [slotMatches, state] using h
    · exact h
  · rw [grantOf_takeGrant_other s e k same]
    exact h

/-- R56: a rotation permutes the ranks. -/
theorem RanksPermuted.rotate {s : State} (h : RanksPermuted s) (winner : SlotId) :
    RanksPermuted (rotateRanks s winner) := by
  obtain ⟨below, injective⟩ := h
  have rank (k : SlotId) : (grantOf (rotateRanks s winner) k).rank =
      if k = winner then 0
      else if (grantOf s k).rank < (grantOf s winner).rank then (grantOf s k).rank + 1
      else (grantOf s k).rank := by
    rw [grantOf_rotateRanks]
    split
    · rfl
    · split <;> rfl
  refine ⟨fun k => ?_, fun k j same => ?_⟩
  · rw [rank]
    have := below k
    have := below winner
    split
    · omega
    · split <;> omega
  · rw [rank, rank] at same
    have distinct (a b : SlotId) (ne : a ≠ b) : (grantOf s a).rank ≠ (grantOf s b).rank :=
      fun e => ne (injective a b e)
    by_cases isK : k = winner <;> by_cases isJ : j = winner
    · exact isK.trans isJ.symm
    · have := distinct j winner isJ
      rw [if_pos isK, if_neg isJ] at same
      split at same <;> omega
    · have := distinct k winner isK
      rw [if_neg isK, if_pos isJ] at same
      split at same <;> omega
    · have := distinct j winner isJ
      have := distinct k winner isK
      rw [if_neg isK, if_neg isJ] at same
      refine injective k j ?_
      split at same <;> split at same <;> omega

theorem rotateRanks_grantsKept (s : State) (winner : SlotId) :
    GrantsKept listed s (rotateRanks s winner) := by
  have moved := rotateRanks_moved s winner
  have states (k : SlotId) : (grantOf (rotateRanks s winner) k).state = (grantOf s k).state := by
    rw [grantOf_rotateRanks]
    split
    · rfl
    · split <;> rfl
  refine ⟨fun h k => ?_, fun h => h.rotate winner, fun _ _ h => ?_⟩
  · have form := h k
    rw [moved.recordOf_eq, grantOf_rotateRanks]
    split
    · exact form
    · split <;> exact form
  · rw [requestsMatchSlots_iff] at h ⊢
    obtain ⟨unique, owned, matched⟩ := h
    have held (i : FrameId) : heldSlot (rotateRanks s winner) i = heldSlot s i := rfl
    refine ⟨unique, fun i k h => ?_, fun k => ?_⟩
    · rw [moved.ownerOf_eq, moved.recordOf_eq]
      exact owned i k h
    · rw [states, heldFor_of_heldSlot s _ held]
      exact matched k

theorem applyPlan_grantsKept (plan : Plan) (s : State) :
    GrantsKept listed s (applyPlan plan s) := by
  have takes := GrantsKept.foldl (listed := listed) takeGrant takeGrant_grantsKept
    (plan.grants.filter (entryPasses s)) s
  have rotations (winners : List GrantEntry) (x : State) :
      GrantsKept listed x (winners.foldl (fun t e => rotateRanks t e.slot) x) :=
    .foldl _ (fun u e => rotateRanks_grantsKept u e.slot) winners x
  have published (x : State) : GrantsKept listed x (publish plan.figures x) := .of_blocks rfl rfl
  unfold applyPlan
  dsimp only
  exact takes.trans ((endGrants_grantsKept .plan _ _).trans ((rotations _ _).trans (published _)))

theorem beginMarkedLatePlan_grantsKept (s : State) :
    GrantsKept listed s (beginMarkedLatePlan s) := by
  refine .of_blocks ?_ (beginMarkedLatePlan_pool s)
  rw [beginMarkedLatePlan_eq]
  rfl

end Operations

end Sys2Proof.Machine
end

section
/-! SUPPORT. The grant records and the requests held for slots through the intake, the frame commands,
PORT-RESET, the accepted exit and every command (R41, R45, R75 to R78, R83, R84). -/

namespace Sys2Proof.Machine

/-! ## The intake -/

theorem heldSlot_of_not_isHeld {s : State} {i : FrameId} (h : isHeld s i = false) :
    heldSlot s i = none := by simp [heldSlot, h]

theorem isHeld_of_state {s : State} {i : FrameId} {st : FrameState} (h : (frameOf s i).state = st)
    (listed : ∀ age, st ≠ .held age) : isHeld s i = false := by
  rw [Bool.eq_false_iff, ne_eq, isHeld_iff]
  rintro ⟨age, held⟩
  exact listed age (h.symm.trans held)

theorem kind_clampedRequest (s : State) (r : Request) :
    (clampedRequest s r).kind = r.kind ∧ (clampedRequest s r).slot = r.slot := by
  unfold clampedRequest
  split <;> exact ⟨rfl, rfl⟩

/-- R77: the slot that a frame taken up concerns. -/
theorem heldSlot_holdFrame (s : State) (i j : FrameId) : heldSlot (holdFrame s i) j =
    if i = j then
      if kindNamesSource (kindOf s i) then slotOf (frameOf s i).request.slot else none
    else heldSlot s j := by
  by_cases e : i = j
  · subst e
    obtain ⟨kind, slot⟩ := kind_clampedRequest s (frameOf s i).request
    have frame : frameOf (holdFrame s i) i =
        { frameOf s i with state := .held 0, request := clampedRequest s (frameOf s i).request } := by
      simp [holdFrame]
    have held : isHeld (holdFrame s i) i = true := by simp [isHeld, frame]
    have same : kindOf (holdFrame s i) i = kindOf s i := by simp [kindOf, frame, kind]
    simp only [heldSlot, held, same, Bool.true_and, if_true]
    rw [frame, ← slot]
  · rw [if_neg e]
    exact heldSlot_of_frame _ _ j (frameOf_modFrame_other s i j _ e)

theorem reportFrame_table (outcome : FrameOutcome) (s : State) (i : FrameId) :
    (reportFrame outcome s i).table = s.table := by
  unfold reportFrame
  dsimp only
  split <;> rfl

section Intake
variable {listed : Prop}

/-- R80: the report of a frame that is not HELD. -/
theorem reportFrame_grantsKept (outcome : FrameOutcome) {s : State} {i : FrameId}
    (notHeld : listed → isHeld s i = false) :
    GrantsKept listed s (reportFrame outcome s i) := by
  refine .of_table (reportFrame_table outcome s i) (fun l j => ?_)
    fun _ j _ _ => (reportFrame_moved outcome s i).ownerOf_eq j
  by_cases e : i = j
  · subst e
    have reported : isHeld (reportFrame outcome s i) i = false :=
      isHeld_of_state (by rw [state_reportFrame, if_pos rfl]) (by simp)
    rw [heldSlot_of_not_isHeld (notHeld l), heldSlot_of_not_isHeld reported]
  · refine heldSlot_of_frame _ _ j ?_
    rw [frameOf_reportFrame, if_neg e]

theorem holdFrame_table (s : State) (i : FrameId) : (holdFrame s i).table = s.table := rfl

/-- R77: a RESERVE or COMFORT request concerns no source. -/
theorem holdFrame_grantsKept {s : State} {i : FrameId} (notHeld : listed → isHeld s i = false)
    (kind : kindNamesSource (kindOf s i) = false) : GrantsKept listed s (holdFrame s i) := by
  refine .of_table (holdFrame_table s i) (fun l j => ?_)
    fun _ j _ _ => (holdFrame_moved s i).ownerOf_eq j
  rw [heldSlot_holdFrame, kind]
  by_cases e : i = j
  · subst e
    simp [heldSlot_of_not_isHeld (notHeld l)]
  · rw [if_neg e]

theorem grantOf_acceptForSource (s : State) (k j : SlotId) :
    grantOf (acceptForSource s k) j =
      if j = k then { grantOf s k with
        state := if (grantOf s k).state = .idle then .waiting else (grantOf s k).state
        requestGranted := false }
      else grantOf s j := by
  unfold acceptForSource
  by_cases e : j = k
  · subst e
    simp
  · rw [if_neg e, grantOf_modGrant_other s k j _ (Ne.symm e)]

/-- R45, R77: a HEAT or STANDING request is taken up for a slot that has none. -/
theorem acceptForSource_grantsKept {s : State} {p : PortId} {i : FrameId} {k : SlotId}
    (owner : listed → ownerOf s i = some p) (notHeld : listed → isHeld s i = false)
    (kind : kindNamesSource (kindOf s i) = true) (slot : slotOf (frameOf s i).request.slot = some k)
    (ownerK : (recordOf s k).owner = some p) (free : heldFor s k = none) :
    GrantsKept listed s (acceptForSource (holdFrame s i) k) := by
  have moved : SourcesMoved s (acceptForSource (holdFrame s i) k) :=
    (holdFrame_moved s i).trans (acceptForSource_moved _ k)
  have grants (j : SlotId) := grantOf_acceptForSource (holdFrame s i) k j
  have before (j : SlotId) : grantOf (holdFrame s i) j = grantOf s j := rfl
  simp only [before] at grants
  have held (j : FrameId) : heldSlot (acceptForSource (holdFrame s i) k) j =
      if i = j then some k else heldSlot s j := by
    have same : heldSlot (acceptForSource (holdFrame s i) k) j = heldSlot (holdFrame s i) j := rfl
    rw [same, heldSlot_holdFrame, kind, slot]
    simp
  refine ⟨fun formed j => ?_, fun h => h.congr fun j => ?_, fun l formed matched => ?_⟩
  · rw [moved.recordOf_eq, grants]
    split
    · rename_i e
      rw [e]
      exact grantInForm.accepted (formed k)
    · exact formed j
  · rw [grants]
    split
    · rename_i e
      rw [e]
    · rfl
  · have form := formed k
    rw [requestsMatchSlots_iff] at matched ⊢
    obtain ⟨unique, owned, states⟩ := matched
    have none (j : FrameId) : heldSlot s j ≠ some k := fun h => by
      have some := (heldFor_isSome s k).mpr ⟨j, h⟩
      rw [free] at some
      cases some
    have bare := heldSlot_of_not_isHeld (notHeld l)
    refine ⟨fun a b j ha hb => ?_, fun j m h => ?_, fun j => ?_⟩
    · rw [held] at ha hb
      by_cases isA : i = a <;> by_cases isB : i = b
      · exact isA.symm.trans isB
      · rw [if_pos isA] at ha
        rw [if_neg isB, ← ha] at hb
        exact absurd hb (none b)
      · rw [if_pos isB] at hb
        rw [if_neg isA, ← hb] at ha
        exact absurd ha (none a)
      · rw [if_neg isA] at ha
        rw [if_neg isB] at hb
        exact unique a b j ha hb
    · rw [moved.ownerOf_eq, moved.recordOf_eq]
      rw [held] at h
      split at h
      · rename_i e
        cases h
        exact ⟨p, e ▸ owner l, ownerK⟩
      · exact owned j m h
    · by_cases e : j = k
      · subst e
        have some : (heldFor (acceptForSource (holdFrame s i) j) j).isSome = true :=
          (heldFor_isSome _ j).mpr ⟨i, by rw [held, if_pos rfl]⟩
        have used : (grantOf s j).state ≠ .unused := fun state => by
          rw [form.1.mp state] at ownerK
          cases ownerK
        rw [some, grants, if_pos rfl]
        by_cases idle : (grantOf s j).state = .idle
        · simp [idle, slotMatches]
        · cases state : (grantOf s j).state <;> simp_all [slotMatches]
      · have same : (heldFor (acceptForSource (holdFrame s i) k) j).isSome =
            (heldFor s j).isSome := by
          rw [Bool.eq_iff_iff, heldFor_isSome, heldFor_isSome]
          refine exists_congr fun a => ?_
          rw [held]
          by_cases isA : i = a
          · subst isA
            rw [if_pos rfl, bare]
            exact ⟨fun h => absurd (Option.some.inj h).symm e, fun h => nomatch h⟩
          · rw [if_neg isA]
        rw [same, grants, if_neg e]
        exact states j

/-- One request that ends is a set of one. -/
theorem endRequest_eq (outcome : FrameOutcome) (s : State) (i : FrameId) :
    endRequest outcome s i = endRequests (fun _ => outcome) s (fun j => j == i) := by
  have single : allFrames.filter (fun j => j == i) = [i] := by
    revert i
    decide +kernel
  unfold endRequests
  rw [single]
  rfl

/-- R78: a cancellation ends the grant of its target's source, then the request. -/
theorem cancelRequest_grantsKept {s : State} {i : FrameId} (target : FrameId)
    (notHeld : listed → isHeld s i = false) :
    GrantsKept listed s (cancelRequest s i target) := by
  have grantEnds := endGrantOfs_eq [target] s
  rw [List.foldl_cons, List.foldl_nil] at grantEnds
  have kept := endGrants_kept .requestEnd s ([target].filterMap (heldSlot s))
  unfold cancelRequest
  rw [grantEnds, endRequest_eq]
  refine (endGrants_grantsKept .requestEnd s _).trans ((endRequests_grantsKept _ _ _ ?_).trans
    (reportFrame_grantsKept .done fun l => ?_))
  · intro j k isTarget slot
    rw [kept.heldSlot_eq] at slot
    refine endGrants_stopped .requestEnd s _ (List.mem_filterMap.mpr ⟨target, by simp, ?_⟩)
    rwa [← (beq_iff_eq.mp isTarget)]
  · have still : isHeld (endGrants .requestEnd s ([target].filterMap (heldSlot s))) i = false :=
      (kept.isHeld_eq i).trans (notHeld l)
    have frame := frameOf_endRequests (fun _ => FrameOutcome.cancelled)
      (endGrants .requestEnd s ([target].filterMap (heldSlot s))) (fun j => j == target) i
    rw [still, if_neg (by simp)] at frame
    unfold isHeld at still ⊢
    rw [frame]
    exact still

theorem settleFrame_grantsKept {s : State} {p : PortId} {i : FrameId}
    (owner : listed → ownerOf s i = some p) (notHeld : listed → isHeld s i = false) :
    GrantsKept listed s (settleFrame s p i) := by
  rcases settleFrame_cases s p i with ⟨outcome, _, eq⟩ | ⟨k, kind, slot, ownerK, free, eq⟩ |
    ⟨kind, eq⟩ | ⟨target, _, _, _, _, eq⟩ <;> rw [eq]
  · exact reportFrame_grantsKept outcome notHeld
  · have names : kindNamesSource (kindOf s i) = true := by
      rcases kind with kind | kind <;> rw [kind] <;> rfl
    exact acceptForSource_grantsKept owner notHeld names slot ownerK free
  · have names : kindNamesSource (kindOf s i) = false := by
      rcases kind with kind | kind <;> rw [kind] <;> rfl
    exact holdFrame_grantsKept notHeld names
  · exact cancelRequest_grantsKept target notHeld

theorem setPostList_grantsKept (s : State) (p : PortId) (l : List FrameId) :
    GrantsKept listed s (setPostList s p l) :=
  .of_table rfl (fun _ _ => rfl) fun _ _ _ _ => rfl

theorem settleHead_grantsKept (p : PortId) {s : State} (lists : listed → ListedBut none s) :
    GrantsKept listed s (settleHead p s) := by
  unfold settleHead
  split
  · exact .refl s
  · rename_i i rest head
    refine (setPostList_grantsKept s p rest).trans (settleFrame_grantsKept (fun l => ?_) fun l => ?_)
    · exact ((lists l).headTaken head).2.1
    · have posted : (frameOf (setPostList s p rest) i).state = .posted :=
        ((lists l).headTaken head).2.2
      exact isHeld_of_state posted (by simp)

theorem settleHeads_grantsKept (ports : List PortId) {s : State}
    (lists : listed → ListedBut none s) :
    GrantsKept listed s (ports.foldl (fun t q => settleHead q t) s) := by
  induction ports generalizing s with
  | nil => exact .refl s
  | cons q rest ih =>
    exact (settleHead_grantsKept q lists).trans (ih fun l => (lists l).settleHead q)

theorem latePlanAsk_grantsKept (s : State) : GrantsKept listed s (latePlanAsk s) := by
  refine .of_blocks ?_ (latePlanAsk_pool s)
  rw [latePlanAsk_eq]
  rfl

theorem takeThenPlan_grantsKept (p : PortId) {s : State} (lists : listed → ListedBut none s) :
    GrantsKept listed s (takeThenPlan p s) := by
  have head := settleHead_grantsKept p lists
  have heads (ports : List PortId) := settleHeads_grantsKept ports fun l => (lists l).settleHead p
  have drawn (x : State) : GrantsKept listed x x.nextDraw := .of_blocks rfl rfl
  unfold takeThenPlan
  dsimp only
  split
  · have asked := head.trans ((heads (takenBeforePlan (settleHead p s) p)).trans
      ((drawn _).trans (latePlanAsk_grantsKept _)))
    split
    · exact asked.trans (latePlanAsk_grantsKept _)
    · exact asked
  · exact head

end Intake

/-! ## PORT-RESET -/

theorem recordOf_sourceDiscarded (s : State) (j k : SlotId) :
    recordOf (sourceDiscarded s j) k = recordOf s k := (sourceDiscarded_moved s j).recordOf_eq k

theorem grantOf_sourceDiscarded_other (s : State) {j k : SlotId} (h : j ≠ k) :
    grantOf (sourceDiscarded s j) k = grantOf s k := by
  unfold sourceDiscarded
  rw [grantOf_releaseSource, if_neg fun e => h e.1, grantOf_endGrant_other _ s j k h]

theorem rank_sourceDiscarded (s : State) (j k : SlotId) :
    (grantOf (sourceDiscarded s j) k).rank = (grantOf s k).rank := by
  have ended : (grantOf (endGrant .requestEnd s j) k).rank = (grantOf s k).rank :=
    rank_endGrants .requestEnd [j] s k
  unfold sourceDiscarded
  rw [grantOf_releaseSource]
  split <;> exact ended

theorem sourceDiscarded_stopped (s : State) (k : SlotId) :
    (grantOf (sourceDiscarded s k) k).state ≠ .waiting ∧
      (grantOf (sourceDiscarded s k) k).state ≠ .running := by
  have ended : (grantOf (endGrant .requestEnd s k) k).state ≠ .running :=
    endGrants_stopped .requestEnd s [k] (by simp)
  unfold sourceDiscarded
  rw [grantOf_releaseSource]
  by_cases waiting : isGrantWaiting (endGrant .requestEnd s k) k = true
  · rw [if_pos ⟨rfl, waiting⟩]
    simp
  · rw [if_neg fun h => waiting h.2]
    exact ⟨by simpa [isGrantWaiting] using waiting, ended⟩

theorem grantInForm_sourceDiscarded (s : State) (k : SlotId) (owner : Option PortId)
    (h : grantInForm owner (grantOf s k)) : grantInForm owner (grantOf (sourceDiscarded s k) k) := by
  have ended : grantInForm owner (grantOf (endGrant .requestEnd s k) k) := by
    rw [grantOf_endGrant_self]
    split
    · rename_i running
      exact h.ended (by simpa [isGrantRunning] using running) _ _
    · exact h
  unfold sourceDiscarded
  rw [grantOf_releaseSource]
  split
  · rename_i released
    exact ended.released (by simpa [isGrantWaiting] using released.2)
  · exact ended

/-- R84: the sources of several discarded requests. -/
theorem sourcesDiscarded (slots : List SlotId) (s : State) (k : SlotId) :
    (k ∉ slots → grantOf (slots.foldl sourceDiscarded s) k = grantOf s k) ∧
      (k ∈ slots → (grantOf (slots.foldl sourceDiscarded s) k).state ≠ .waiting ∧
        (grantOf (slots.foldl sourceDiscarded s) k).state ≠ .running) ∧
      (∀ owner, grantInForm owner (grantOf s k) →
        grantInForm owner (grantOf (slots.foldl sourceDiscarded s) k)) ∧
      (grantOf (slots.foldl sourceDiscarded s) k).rank = (grantOf s k).rank := by
  induction slots generalizing s with
  | nil => exact ⟨fun _ => rfl, fun h => (nomatch h), fun _ h => h, rfl⟩
  | cons j rest ih =>
    obtain ⟨outside, stopped, form, rank⟩ := ih (sourceDiscarded s j)
    rw [List.foldl_cons]
    refine ⟨fun absent => ?_, fun mem => ?_, fun owner h => form owner ?_,
      rank.trans (rank_sourceDiscarded s j k)⟩
    · obtain ⟨other, absent⟩ := List.ne_and_not_mem_of_not_mem_cons absent
      rw [outside absent, grantOf_sourceDiscarded_other s (Ne.symm other)]
    · by_cases later : k ∈ rest
      · exact stopped later
      · rw [outside later]
        rcases List.mem_cons.mp mem with rfl | mem
        · exact sourceDiscarded_stopped s k
        · exact absurd mem later
    · by_cases e : j = k
      · subst e
        exact grantInForm_sourceDiscarded s j owner h
      · rw [grantOf_sourceDiscarded_other s e]
        exact h

theorem grantOf_framesFreed (p : PortId) (s : State) (k : SlotId) :
    grantOf (framesFreed p s) k = grantOf s k := by
  unfold framesFreed
  induction portFrames s.pool.shares p generalizing s with
  | nil => rfl
  | cons i rest ih => exact (ih (setFrameState s i .free)).trans rfl

theorem grantOf_resetFrames (p : PortId) (s : State) (k : SlotId) :
    grantOf (resetFrames p s) k = grantOf (requestsDiscarded p s) k := by
  have table (x : State) (l : List FrameId) :
      grantOf (setFreeList (setReplyQueue (setPostList x p []) p []) p l) k = grantOf x k := rfl
  rw [resetFrames_eq, table]

theorem recordOf_resetFrames (p : PortId) (s : State) (k : SlotId) :
    recordOf (resetFrames p s) k = recordOf s k := by
  obtain ⟨pool, table, eq, records⟩ := resetFrames_blocks p s
  rw [eq]
  simp [recordOf, records]

/-- R84: the port's requests are held no more, and every other stands. -/
theorem heldSlot_resetFrames (p : PortId) (s : State) (i : FrameId) :
    heldSlot (resetFrames p s) i = if ownerOf s i = some p then none else heldSlot s i := by
  by_cases mine : ownerOf s i = some p
  · rw [if_pos mine]
    refine heldSlot_of_not_isHeld (isHeld_of_state (st := .free) ?_ (by simp))
    rw [state_resetFrames, if_pos mine]
  · rw [if_neg mine]
    obtain ⟨_, _, _, _, frames⟩ := requestsDiscarded_kept p s
    obtain ⟨state, request⟩ := frames i
    rw [frameOf_framesFreed, if_neg mine] at state request
    have frame := frameOf_reset (requestsDiscarded p s) p (portFrames s.pool.shares p) i
    rw [← resetFrames_eq] at frame
    simp [heldSlot, isHeld, kindOf, frame, state, request]

theorem resetFrames_grantsKept {listed : Prop} (p : PortId) (s : State) :
    GrantsKept listed s (resetFrames p s) := by
  have discarded := sourcesDiscarded
    ((portFrames s.pool.shares p).filterMap (heldSlot s)) (framesFreed p s)
  have named (k : SlotId) : k ∈ (portFrames s.pool.shares p).filterMap (heldSlot s) ↔
      ∃ i, ownerOf s i = some p ∧ heldSlot s i = some k := by
    simp only [List.mem_filterMap, mem_portFrames]
    rfl
  refine .of_ended (fun i => decide (ownerOf s i = some p)) (fun i => ?_)
    (fun i k _ => ⟨ownerOf_resetFrames p s i, by rw [recordOf_resetFrames]⟩)
    (fun k h => ?_) (fun k => ?_) (fun i k ends slot => ?_) fun k untouched h => ?_
  · rw [heldSlot_resetFrames]
    simp
  · rw [recordOf_resetFrames, grantOf_resetFrames]
    refine (discarded k).2.2.1 _ ?_
    rwa [grantOf_framesFreed]
  · rw [grantOf_resetFrames]
    exact (discarded k).2.2.2.trans (by rw [grantOf_framesFreed])
  · rw [grantOf_resetFrames]
    exact (discarded k).2.1 ((named k).mpr ⟨i, by simpa using ends, slot⟩)
  · have absent : k ∉ (portFrames s.pool.shares p).filterMap (heldSlot s) := by
      rw [named]
      rintro ⟨i, owner, slot⟩
      exact untouched i (by simpa using owner) slot
    rw [grantOf_resetFrames]
    exact ((discarded k).1 absent).symm ▸ grantOf_framesFreed p s k ▸ h

/-! ## The accepted exit -/

theorem recordOf_recordsCopied (s : State) (k : SlotId) :
    recordOf (recordsCopied s) k = copiedRecord s.store.image k := by
  simp [recordOf, recordsCopied]

theorem grantOf_recordsCopied (s : State) (k : SlotId) :
    grantOf (recordsCopied s) k = exitGrant s k (grantOf s k) := by
  simp [grantOf, recordsCopied]

/-- R41: the three ways an accepted exit takes a slot. -/
theorem exitGrant_cases (s : State) (k : SlotId) (g : GrantRecord) :
    (losesRequest s k = true ∧ ∃ st, exitGrant s k g = clearedGrant st g.rank ∧
      ((st = .idle ∧ (copiedRecord s.store.image k).owner ≠ none) ∨
        (st = .unused ∧ (copiedRecord s.store.image k).owner = none))) ∨
      (losesRequest s k = false ∧ exitGrant s k g = g ∧
        (copiedRecord s.store.image k).owner = (recordOf s k).owner) := by
  unfold exitGrant losesRequest
  dsimp only
  by_cases asNew : takenAsNew (recordOf s k) (copiedRecord s.store.image k) = true
  · refine .inl ⟨by simp [asNew], .idle, by rw [if_pos asNew], .inl ⟨rfl, ?_⟩⟩
    simp only [takenAsNew, Bool.and_eq_true] at asNew
    exact Option.isSome_iff_ne_none.mp asNew.1
  · by_cases unused : madeUnused (recordOf s k) (copiedRecord s.store.image k) = true
    · refine .inl ⟨by simp [unused], .unused, by rw [if_neg asNew, if_pos unused], .inr ⟨rfl, ?_⟩⟩
      simp only [madeUnused, Bool.and_eq_true, Option.isNone_iff_eq_none] at unused
      exact unused.1
    · refine .inr ⟨by simp [asNew, unused], by rw [if_neg asNew, if_neg unused], ?_⟩
      cases new : (copiedRecord s.store.image k).owner with
      | none =>
        cases old : (recordOf s k).owner with
        | none => rfl
        | some p => simp [madeUnused, new, old] at unused
      | some p =>
        simp only [takenAsNew, new, Option.isSome_some, Bool.true_and, Bool.or_eq_true, not_or,
          bne_iff_ne, ne_eq, Classical.not_not] at asNew
        exact asNew.1.1.1.symm

/-- R41, R83: the grant records at an accepted exit. -/
theorem grantOf_exitSources (s : State) (k : SlotId) :
    grantOf (exitSources s) k = exitGrant s k (grantOf s k) := by
  rw [exitSources_eq, grantOf_endRequests, if_neg, grantOf_recordsCopied]
  rintro ⟨⟨i, withdrawn, slot⟩, waiting⟩
  have slot : heldSlot s i = some k := slot
  have loses : losesRequest s k = true := by simpa [isWithdrawn, slot] using withdrawn
  rw [isGrantWaiting, grantOf_recordsCopied] at waiting
  rcases exitGrant_cases s k (grantOf s k) with ⟨_, st, eq, state⟩ | ⟨stays, _⟩
  · rw [eq] at waiting
    rcases state with ⟨rfl, _⟩ | ⟨rfl, _⟩ <;> simp [clearedGrant] at waiting
  · rw [loses] at stays
    cases stays

theorem exitSources_grantsKept {listed : Prop} (s : State) :
    GrantsKept listed s (exitSources s) := by
  have moved := endRequests_moved (fun _ => FrameOutcome.withdrawn) (recordsCopied s) (isWithdrawn s)
  have slots (i : FrameId) : heldSlot (recordsCopied s) i = heldSlot s i := rfl
  have record (k : SlotId) : recordOf (exitSources s) k = copiedRecord s.store.image k := by
    rw [exitSources_eq, moved.recordOf_eq, recordOf_recordsCopied]
  have grant := grantOf_exitSources s
  refine .of_ended (isWithdrawn s) (fun i => ?_) (fun i k h => ⟨?_, ?_⟩) (fun k h => ?_)
    (fun k => ?_) (fun i k withdrawn slot => ?_) fun k untouched h => ?_
  · rw [exitSources_eq, heldSlot_endRequests, slots]
  · rw [exitSources_eq, moved.ownerOf_eq]
    rfl
  · rw [exitSources_eq, heldSlot_endRequests, slots] at h
    split at h
    · cases h
    · rename_i stays
      rw [record]
      rcases exitGrant_cases s k (grantOf s k) with ⟨loses, _⟩ | ⟨_, _, owner⟩
      · exact absurd (by simpa [isWithdrawn, h] using loses) stays
      · exact owner
  · rw [record, grant]
    rcases exitGrant_cases s k (grantOf s k) with ⟨_, st, eq, state⟩ | ⟨_, eq, owner⟩
    · rw [eq]
      exact .cleared st _ state
    · rw [eq, owner]
      exact h
  · rw [grant]
    rcases exitGrant_cases s k (grantOf s k) with ⟨_, st, eq, _⟩ | ⟨_, eq, _⟩ <;> rw [eq]
    rfl
  · have loses : losesRequest s k = true := by simpa [isWithdrawn, slot] using withdrawn
    rw [grant]
    rcases exitGrant_cases s k (grantOf s k) with ⟨_, st, eq, state⟩ | ⟨stays, _⟩
    · rw [eq]
      rcases state with ⟨rfl, _⟩ | ⟨rfl, _⟩ <;> simp [clearedGrant]
    · rw [loses] at stays
      cases stays
  · rw [grant]
    rcases exitGrant_cases s k (grantOf s k) with ⟨loses, st, eq, state⟩ | ⟨_, eq, _⟩
    · have none : (heldFor s k).isSome = false := by
        rw [Bool.eq_false_iff, ne_eq, heldFor_isSome]
        rintro ⟨i, slot⟩
        exact untouched i (by simpa [isWithdrawn, slot] using loses) slot
      rw [none, eq]
      rcases state with ⟨rfl, _⟩ | ⟨rfl, _⟩ <;> rfl
    · rw [eq]
      exact h

theorem exitShares_grantsKept {listed : Prop} {s : State} (may : listed → sharesMayChange s) :
    GrantsKept listed s (exitShares s) := by
  unfold exitShares
  dsimp only
  split
  · exact .refl s
  · rename_i changed
    refine .of_table rfl (fun _ _ => rfl) fun l i k slot => ?_
    have free := (may l).resolve_left changed i
    rw [heldSlot_of_not_isHeld (isHeld_of_state free (by simp))] at slot
    cases slot

theorem lineEffects_grantsKept {listed : Prop} (before : State) (l : Line) (s : State) :
    GrantsKept listed s (lineEffects before l s) := by
  unfold lineEffects
  split
  · cases l <;> exact endGrants_grantsKept _ s _
  · exact .refl s

theorem exitLines_grantsKept {listed : Prop} (s : State) : GrantsKept listed s (exitLines s) := by
  have lines : GrantsKept listed s (s.setSafety { s.safety with
      x0 := exitLine s.store.image .x0 s.safety.x0
      x1 := exitLine s.store.image .x1 s.safety.x1 }) := .of_blocks rfl rfl
  exact lines.trans ((lineEffects_grantsKept s .x0 _).trans (lineEffects_grantsKept s .x1 _))

/-- R174: the state in which an exit takes the polarities and the settle times of the lines. -/
def planCopied (s : State) : State :=
  (poolCopied s).setPlanner { (poolCopied s).planner with
    periodLength := periodLength s.store.image
    lateThreshold := lateThreshold s.store.image }

theorem exitCopies_eq (s : State) : ∃ cycle ports,
    exitCopies s = ((exitLines (planCopied s)).setCycle cycle).setPorts ports := ⟨_, _, rfl⟩

theorem poolCopied_grantsKept {listed : Prop} {s : State} (may : listed → sharesMayChange s) :
    GrantsKept listed s (poolCopied s) := by
  have probes : GrantsKept listed s (s.setScanner
      { s.scanner with probes := each s.scanner.probes (exitProbe s.store.image) }) :=
    .of_blocks rfl rfl
  have mayStill (l : listed) : sharesMayChange (s.setScanner
      { s.scanner with probes := each s.scanner.probes (exitProbe s.store.image) }) := may l
  exact probes.trans ((exitSources_grantsKept _).trans
    (exitShares_grantsKept fun l => (mayStill l).exitSources))

theorem exitCopies_grantsKept {listed : Prop} {s : State} (may : listed → sharesMayChange s) :
    GrantsKept listed s (exitCopies s) := by
  have planned : GrantsKept listed (poolCopied s) (planCopied s) :=
    .of_blocks (State.setPlanner_table _ _) (State.setPlanner_pool _ _)
  have lines := (poolCopied_grantsKept may).trans (planned.trans (exitLines_grantsKept _))
  obtain ⟨cycle, ports, eq⟩ := exitCopies_eq s
  rw [eq]
  refine lines.trans (.of_blocks ?_ ?_)
  · rw [State.setPorts_table, State.setCycle_table]
  · rw [State.setPorts_pool, State.setCycle_pool]

theorem exitTaken_grantsKept {listed : Prop} {s : State} (may : listed → sharesMayChange s) :
    GrantsKept listed s (exitTaken s) := by
  have modes : GrantsKept listed s (changeModes (copiedModes s.store.image) s) := .of_blocks rfl rfl
  have follow (x y : State) : GrantsKept listed y (followConditions x y) := .of_blocks rfl rfl
  have mayStill (l : listed) : sharesMayChange (changeModes (copiedModes s.store.image) s) := may l
  exact modes.trans ((exitCopies_grantsKept mayStill).trans (follow _ _))

/-! ## Fresh blocks -/

theorem grantOf_fresh {s : State} {img : Image} (table : s.table = freshTable img) (k : SlotId) :
    grantOf s k = freshGrant img k := by
  simp [grantOf, table, freshTable]

/-- R58: the records and the requests after a reset or a load. -/
theorem GrantsKept.of_fresh {listed : Prop} {s t : State} {img : Image}
    (table : t.table = freshTable img) (pool : t.pool = freshPool img) :
    GrantsKept listed s t ∧ GrantsFormed t ∧ RanksPermuted t ∧ RequestsMatchSlots t := by
  have record (k : SlotId) : recordOf t k = copiedRecord img k := by
    simp [recordOf, table, freshTable]
  have state (k : SlotId) : freshGrant img k =
      clearedGrant (if (recordOwner img k).isSome then .idle else .unused) k.val := rfl
  have form : GrantsFormed t := fun k => by
    rw [record, grantOf_fresh table, state]
    refine grantInForm.cleared _ _ ?_
    have owner : (copiedRecord img k).owner = recordOwner img k := rfl
    rw [owner]
    cases recordOwner img k <;> simp
  have ranks : RanksPermuted t := by
    refine ⟨fun k => ?_, fun k j => ?_⟩
    · rw [grantOf_fresh table]
      exact k.isLt
    · rw [grantOf_fresh table, grantOf_fresh table]
      exact fun same => Fin.ext same
  have free (i : FrameId) : heldSlot t i = none := by
    refine heldSlot_of_not_isHeld (isHeld_of_state (st := .free) ?_ (by simp))
    simp [frameOf, pool, freshPool, clearedFrame]
  have matched : RequestsMatchSlots t := by
    rw [requestsMatchSlots_iff]
    refine ⟨fun i j k h => ?_, fun i k h => ?_, fun k => ?_⟩
    · rw [free] at h; cases h
    · rw [free] at h; cases h
    · have none : (heldFor t k).isSome = false := by
        rw [Bool.eq_false_iff, ne_eq, heldFor_isSome]
        rintro ⟨i, slot⟩
        rw [free] at slot
        cases slot
      rw [none, grantOf_fresh table, state]
      cases recordOwner img k <;> rfl
  exact ⟨⟨fun _ => form, fun _ => ranks, fun _ _ _ => matched⟩, form, ranks, matched⟩

/-! ## Every step -/

/-- A frame that is not HELD before or after a change of it. -/
theorem GrantsKept.of_frame {listed : Prop} {s t : State} (i : FrameId) (table : t.table = s.table)
    (shares : t.pool.shares = s.pool.shares) (others : ∀ j, j ≠ i → frameOf t j = frameOf s j)
    (before : listed → isHeld s i = false) (after : listed → isHeld t i = false) :
    GrantsKept listed s t := by
  refine .of_table table (fun l j => ?_) fun _ j _ _ => by simp [ownerOf, shares]
  by_cases e : j = i
  · subst e
    rw [heldSlot_of_not_isHeld (before l), heldSlot_of_not_isHeld (after l)]
  · exact heldSlot_of_frame _ _ j (others j e)

theorem Served.grantsKept {listed : Prop} {p : PortId} {s t : State} (h : Served p s t)
    (lists : listed → FramesListed s) : GrantsKept listed s t := by
  have listedBut (l : listed) : ListedBut none s := ((framesListed_iff s).mp (lists l)).2
  cases h
  case taken i rest head =>
    refine .of_frame i rfl rfl (fun j e => frameOf_modFrame_other _ i j _ (Ne.symm e))
      (fun l => ?_) fun _ => ?_
    · have free := ((listedBut l).1 p).1
      rw [head] at free
      exact isHeld_of_state ((free.2 i).mp (List.mem_cons_self ..)).2.1 (by simp)
    · exact isHeld_of_state (st := .taken) (by simp [clearedFrame]) (by simp)
  case filled i offset data state =>
    refine .of_frame i rfl rfl (fun j e => frameOf_modFrame_other _ i j _ (Ne.symm e))
      (fun _ => isHeld_of_state state (by simp)) fun _ => isHeld_of_state (st := .taken) ?_ (by simp)
    simp [state]
  case posted i owner state =>
    refine .of_frame i rfl rfl (fun j e => ?_) (fun _ => isHeld_of_state state (by simp))
      fun _ => isHeld_of_state (st := .posted) ?_ (by simp)
    · rw [frameOf_setPostList, frameOf_modFrame_other _ i j _ (Ne.symm e)]
    · rw [frameOf_setPostList]
      simp
  case freed i owner state =>
    refine .of_frame i rfl rfl (fun j e => frameOf_modFrame_other s i j _ (Ne.symm e)) (fun _ => ?_)
      fun _ => isHeld_of_state (st := .free) ?_ (by simp)
    · rcases state with state | state <;> exact isHeld_of_state state (by simp)
    · have now : frameOf (Machine.freed s p i) i = frameOf (setFrameState s i .free) i := rfl
      rw [now, frameOf_setFrameState, if_pos rfl]
  case collected i rest head =>
    refine .of_frame i rfl rfl (fun j e => frameOf_modFrame_other s i j _ (Ne.symm e)) (fun l => ?_)
      fun _ => isHeld_of_state (st := .collected) ?_ (by simp)
    · have reply := ((listedBut l).1 p).2.2
      rw [head] at reply
      exact isHeld_of_state ((reply.2 i).mp (List.mem_cons_self ..)).2.1 (by simp)
    · rw [frameOf_setReplyQueue, frameOf_setFrameState, if_pos rfl]
  case written n data permitted =>
    have stored : GrantsKept listed s (storeWritten (portOf s p).selector data s) := by
      obtain ⟨x, alerts, eq, _⟩ := storeWritten_eq (portOf s p).selector data s
      rw [eq]
      exact .of_blocks rfl rfl
    exact (stored.trans (endGrants_grantsKept .paidBlock _ _)).trans (.of_blocks rfl rfl)
  case entered =>
    have begun : GrantsKept listed s (s.setStore (storeEntered p s)) := .of_blocks rfl rfl
    refine (begun.trans (revokeAll_grantsKept .setupEnter _)).trans (.of_blocks ?_ ?_)
    · obtain ⟨alerts, eq⟩ := setupEntered_blocks p s
      rw [eq]
      rfl
    · obtain ⟨alerts, eq⟩ := setupEntered_blocks p s
      rw [eq]
      rfl
  case exited setup inside passes =>
    rw [setupExited_eq]
    exact (exitTaken_grantsKept fun l => sharesMayChange_of_exit (lists l) inside passes).trans
      (endSetup_grantsKept _)
  case restored => exact endSetupRestoring_grantsKept s
  case portReset => exact (resetFrames_grantsKept p s).trans (.of_blocks rfl rfl)
  all_goals exact .of_blocks rfl rfl

theorem setLine_grantsKept {listed : Prop} (s : State) (l : Line) (x : InputLine) :
    GrantsKept listed s (setLine s l x) := by
  cases l <;> exact .of_blocks rfl rfl

theorem takeLevel_grantsKept {listed : Prop} (l : Line) (level : Level) (s : State) :
    GrantsKept listed s (takeLevel l level s) :=
  (setLine_grantsKept s l _).trans ((lineEffects_grantsKept s l _).trans (.of_blocks rfl rfl))

theorem Effect.grantsKept {s t : State} (h : Effect s t) : GrantsKept (FramesListed s) s t := by
  cases h
  case reset => exact (GrantsKept.of_fresh (img := factoryImage) rfl rfl).1
  case loaded =>
    have fresh : GrantsKept (FramesListed s) s (beginScan (settledLoad s)) := by
      obtain ⟨alerts, eq⟩ := settledLoad_eq s
      rw [eq]
      exact (GrantsKept.of_fresh (img := imageToLoad s.store.page) rfl rfl).1
    exact fresh.trans (completeIfEmpty_grantsKept _)
  case scanStarted =>
    have begun : GrantsKept (FramesListed s) s (beginScan s) := .of_blocks rfl rfl
    exact begun.trans (completeIfEmpty_grantsKept _)
  case readEnded => exact readEnded_grantsKept s _ _
  case periodStarted => exact periodStart_grantsKept false s
  case planCompleted plan _ =>
    have ended (x : State) : GrantsKept (FramesListed s) x (planEnded x) := .of_blocks rfl rfl
    exact (applyPlan_grantsKept plan s).trans ((ended _).trans (beginMarkedLatePlan_grantsKept _))
  case planDropped =>
    have ended : GrantsKept (FramesListed s) s (planEnded s) := .of_blocks rfl rfl
    exact ended.trans (beginMarkedLatePlan_grantsKept _)
  case intake p _ _ =>
    exact takeThenPlan_grantsKept p fun l => ((framesListed_iff s).mp l).2
  case pinSet l level => exact setLine_grantsKept s l _
  case pinChanged l level _ =>
    rcases pinChanged_cases l level s with ⟨x, eq⟩ | ⟨x, eq⟩ <;> rw [eq]
    · exact setLine_grantsKept s l x
    · exact (setLine_grantsKept s l x).trans (takeLevel_grantsKept l level _)
  case settled l level => exact takeLevel_grantsKept l level s
  case served p r t running body =>
    have hears : GrantsKept (FramesListed s) s (heard p s) := .of_blocks rfl rfl
    exact (hears.trans (body.grantsKept fun l => l)).trans (.of_blocks rfl rfl)
  all_goals exact .of_blocks rfl rfl

/-- Settles O56: each operation keeps the records in form, permutes the ranks, and ends or takes up a
request together with the state of its source. -/
theorem stepsKeepGrantRecords : Obligations.StepsKeepGrantRecords := by
  intro s t formed next
  have kept := step_keeps (Inv := fun x => GrantsFormed x ∧
    (RanksPermuted s → RanksPermuted x) ∧
    (FramesListed s → RequestsMatchSlots s → FramesListed x ∧ RequestsMatchSlots x))
    (fun _ _ h => h)
    (fun x y h effect => by
      obtain ⟨form, ranks, matched⟩ := h
      have grants := effect.grantsKept
      exact ⟨grants.formed form, fun r => grants.ranks (ranks r), fun l m =>
        ⟨effect.framesListed (matched l m).1,
          grants.matched (matched l m).1 form (matched l m).2⟩⟩)
    ⟨formed, id, fun l m => ⟨l, m⟩⟩ next
  exact ⟨kept.1, kept.2.1, fun l m => (kept.2.2 l m).2⟩

end Sys2Proof.Machine
end

section
/-! SUPPORT. What bars a grant and which sources run, through every step (R46, R50, R51, R54, R120, R126,
R127, R160, R161): a source runs on only while nothing bars it. -/

namespace Sys2Proof.Machine

/-! ## Fewer sources run -/

/-- A source that runs afterwards ran before. -/
def runsFewer (s t : State) : Prop := ∀ k, (grantOf t k).state = .running → (grantOf s k).state = .running

/-- No source runs. -/
def AtRest (s : State) : Prop := ∀ k, (grantOf s k).state ≠ .running

theorem runsFewer.refl (s : State) : runsFewer s s := fun _ h => h

theorem runsFewer.trans {s t u : State} (h : runsFewer s t) (k : runsFewer t u) : runsFewer s u :=
  fun j running => h j (k j running)

theorem runsFewer.of_table {s t : State} (table : t.table = s.table) : runsFewer s t := by
  intro k running
  simpa [grantOf, table] using running

theorem runsFewer.foldl {α : Type} (f : State → α → State) (step : ∀ x a, runsFewer x (f x a))
    (l : List α) (s : State) : runsFewer s (l.foldl f s) := by
  induction l generalizing s with
  | nil => exact .refl s
  | cons a rest ih => exact (step s a).trans (ih (f s a))

theorem AtRest.fewer {s t : State} (h : AtRest s) (fewer : runsFewer s t) : AtRest t :=
  fun k running => h k (fewer k running)

theorem AtRest.sourcesProtected {s : State} (h : AtRest s) : SourcesProtected s :=
  fun k running => absurd running (h k)

/-- R46: in SETUP no source runs. -/
theorem SourcesProtected.atRest {s : State} (h : SourcesProtected s) (inside : inSetup s = true) :
    AtRest s := by
  intro k running
  obtain ⟨_, _, _, outside, _⟩ := h k running
  rw [inside] at outside
  cases outside

theorem endGrants_runsFewer (cause : EndCause) (s : State) (slots : List SlotId) :
    runsFewer s (endGrants cause s slots) := by
  intro k running
  rw [grantOf_endGrants] at running
  split at running
  · exact absurd running (endedGrant_not_running _ _ _)
  · exact running

theorem endRequests_runsFewer (outcome : FrameId → FrameOutcome) (s : State)
    (ended : FrameId → Bool) : runsFewer s (endRequests outcome s ended) := by
  intro k running
  rw [grantOf_endRequests] at running
  split at running
  · cases running
  · exact running

theorem countedGrant_running {held : Bool} {g : GrantRecord}
    (h : (countedGrant held g).state = .running) : g.state = .running := by
  unfold countedGrant at h
  split at h
  · assumption
  · split at h
    · cases held <;> cases h
    · exact h
  all_goals exact h

/-- R51, R52, R160: at a period start no source begins to run, and the sources of a port that falls silent
stop. -/
theorem periodStartTaken_running {first : Bool} {s : State} {k : SlotId}
    (h : (grantOf (periodStartTaken first s) k).state = .running) :
    (grantOf s k).state = .running ∧ ownerFallsSilent s k = false := by
  obtain ⟨lapsed, stays⟩ := grantOf_periodStartTaken first s k
  by_cases lapse : ∃ i, heldSlot s i = some k ∧ lapses s i
  · obtain ⟨i, slot, lapse⟩ := lapse
    rw [lapsed i slot lapse] at h
    split at h
    · rw [← endedGrant_eq_grantEnded] at h
      exact absurd h (endedGrant_not_running _ _ _)
    · split at h
      · cases h
      · exact absurd h (by assumption)
  · rw [stays fun i slot l => lapse ⟨i, slot, l⟩] at h
    split at h
    · rw [← endedGrant_eq_grantEnded] at h
      exact absurd h (endedGrant_not_running _ _ _)
    · rename_i loud
      exact ⟨countedGrant_running h, by simpa [h] using loud⟩

theorem periodStartTaken_runsFewer (first : Bool) (s : State) :
    runsFewer s (periodStartTaken first s) := fun _ running => (periodStartTaken_running running).1

theorem neighboursTake_runsFewer (scan : Scan) (s : State) : runsFewer s (neighboursTake scan s) := by
  intro k running
  refine Classical.byContradiction fun stopped => ?_
  rw [grantOf_neighboursTake_other scan s k stopped] at running
  exact stopped running

theorem scanApplied_runsFewer (scan : Scan) (s : State) : runsFewer s (scanApplied scan s) := by
  intro k running
  refine Classical.byContradiction fun stopped => ?_
  rw [grantOf_scanApplied_other scan s k stopped] at running
  exact stopped running

theorem periodStartOfR90_runsFewer (s : State) : runsFewer s (periodStartOfR90 s) := by
  unfold periodStartOfR90
  split
  · exact periodStartTaken_runsFewer false s
  · exact .refl s

theorem firstPeriodStart_runsFewer (before s : State) : runsFewer s (firstPeriodStart before s) := by
  unfold firstPeriodStart
  split
  · exact .refl s
  · exact periodStartTaken_runsFewer true s

theorem endSetup_runsFewer (s : State) : runsFewer s (endSetup s) := by
  have left : runsFewer s (setupLeft s) := .of_table rfl
  refine left.trans ?_
  unfold endSetup
  dsimp only
  split
  · exact periodStartOfR90_runsFewer _
  · split
    · exact (scanApplied_runsFewer _ _).trans (periodStartOfR90_runsFewer _)
    · exact (periodStartOfR90_runsFewer _).trans
        ((scanApplied_runsFewer _ _).trans (firstPeriodStart_runsFewer _ _))

theorem endSetupRestoring_runsFewer (s : State) : runsFewer s (endSetupRestoring s) := by
  cases inside : s.store.setup with
  | none =>
    rw [endSetupRestoring_outside inside]
    exact .refl s
  | some setup =>
    rw [endSetupRestoring_of_setup inside]
    refine runsFewer.trans (.of_table ?_) (endSetup_runsFewer _)
    obtain ⟨alerts, eq⟩ := imageRestored_eq setup s
    rw [eq]
    rfl

theorem exitSources_runsFewer (s : State) : runsFewer s (exitSources s) := by
  have copied : runsFewer s (recordsCopied s) := by
    intro k running
    rw [grantOf_recordsCopied] at running
    rcases exitGrant_cases s k (grantOf s k) with ⟨_, st, eq, state⟩ | ⟨_, eq, _⟩
    · rw [eq] at running
      rcases state with ⟨rfl, _⟩ | ⟨rfl, _⟩ <;> cases running
    · rwa [eq] at running
  exact copied.trans (endRequests_runsFewer _ _ _)

theorem exitShares_runsFewer (s : State) : runsFewer s (exitShares s) := by
  unfold exitShares
  dsimp only
  split
  · exact .refl s
  · exact .of_table rfl

theorem lineEffects_runsFewer (before : State) (l : Line) (s : State) :
    runsFewer s (lineEffects before l s) := by
  unfold lineEffects
  split
  · cases l <;> exact endGrants_runsFewer _ s _
  · exact .refl s

theorem exitLines_runsFewer (s : State) : runsFewer s (exitLines s) := by
  have lines : runsFewer s (s.setSafety { s.safety with
      x0 := exitLine s.store.image .x0 s.safety.x0
      x1 := exitLine s.store.image .x1 s.safety.x1 }) := .of_table rfl
  exact lines.trans ((lineEffects_runsFewer s .x0 _).trans (lineEffects_runsFewer s .x1 _))

theorem exitCopies_runsFewer (s : State) : runsFewer s (exitCopies s) := by
  have probes : runsFewer s (s.setScanner
      { s.scanner with probes := each s.scanner.probes (exitProbe s.store.image) }) := .of_table rfl
  have pool : runsFewer s (poolCopied s) :=
    probes.trans ((exitSources_runsFewer _).trans (exitShares_runsFewer _))
  have planned : runsFewer s (planCopied s) :=
    pool.trans (.of_table (State.setPlanner_table (poolCopied s) _))
  obtain ⟨cycle, ports, eq⟩ := exitCopies_eq s
  rw [eq]
  refine (planned.trans (exitLines_runsFewer _)).trans (.of_table ?_)
  rw [State.setPorts_table, State.setCycle_table]

theorem exitTaken_runsFewer (s : State) : runsFewer s (exitTaken s) := by
  have modes : runsFewer s (changeModes (copiedModes s.store.image) s) := .of_table rfl
  have follow (x y : State) : runsFewer y (followConditions x y) := .of_table rfl
  exact modes.trans ((exitCopies_runsFewer _).trans (follow _ _))

theorem acceptForSource_runsFewer (s : State) (k : SlotId) : runsFewer s (acceptForSource s k) := by
  intro j running
  rw [grantOf_acceptForSource] at running
  split at running
  · rename_i e
    rw [e]
    dsimp only at running
    split at running
    · cases running
    · exact running
  · exact running

theorem settleFrame_runsFewer (s : State) (p : PortId) (i : FrameId) :
    runsFewer s (settleFrame s p i) := by
  have held : runsFewer s (holdFrame s i) := .of_table (holdFrame_table s i)
  have reported (o : FrameOutcome) (x : State) : runsFewer x (reportFrame o x i) :=
    .of_table (reportFrame_table o x i)
  rcases settleFrame_cases s p i with ⟨outcome, _, eq⟩ | ⟨k, _, _, _, _, eq⟩ | ⟨_, eq⟩ |
    ⟨target, _, _, _, _, eq⟩ <;> rw [eq]
  · exact reported outcome s
  · exact held.trans (acceptForSource_runsFewer _ k)
  · exact held
  · have grantEnds := endGrantOfs_eq [target] s
    rw [List.foldl_cons, List.foldl_nil] at grantEnds
    unfold cancelRequest
    rw [grantEnds, endRequest_eq]
    exact (endGrants_runsFewer _ s _).trans ((endRequests_runsFewer _ _ _).trans (reported _ _))

theorem resetFrames_runsFewer (p : PortId) (s : State) : runsFewer s (resetFrames p s) := by
  intro k running
  obtain ⟨outside, stopped, _, _⟩ := sourcesDiscarded
    ((portFrames s.pool.shares p).filterMap (heldSlot s)) (framesFreed p s) k
  rw [grantOf_resetFrames] at running
  by_cases mem : k ∈ (portFrames s.pool.shares p).filterMap (heldSlot s)
  · exact absurd running (stopped mem).2
  · have same : grantOf (requestsDiscarded p s) k = grantOf s k :=
      (outside mem).trans (grantOf_framesFreed p s k)
    rwa [same] at running

/-! ## What bars a grant -/

section MayRun
variable {s t : State} {k : SlotId}

theorem mayRun_of_moved (h : SourcesMoved s t) (k : SlotId) : mayRun t k ↔ mayRun s k := by
  rw [← grantBarred_iff, ← grantBarred_iff, h.grantBarred_eq]

/-- What `mayRun` reads of a slot stands, and its owner has not fallen silent. -/
theorem mayRun.congr (h : mayRun s k) (part : t.part = s.part) (safety : t.safety = s.safety)
    (model : t.model.state = s.model.state) (setup : t.store.setup = s.store.setup)
    (image : t.store.image = s.store.image) (record : recordOf t k = recordOf s k)
    (port : onActivePort s k → onActivePort t k) : mayRun t k := by
  have line (l : Line) : lineActive t l = lineActive s l := by
    cases l <;> simp [lineActive, isRunning, lineOf, part, safety]
  have inside : inSetup t = inSetup s := by simp [inSetup, setup]
  obtain ⟨temperature, stop, degraded, outside, owner, paid⟩ := h
  exact ⟨by rw [safety]; exact temperature, by rw [line]; exact stop, by rw [model]; exact degraded,
    by rw [inside]; exact outside, port owner,
    by rw [record]; unfold clearOfX0; rw [line, image]; exact paid⟩

theorem onActivePort.congr (h : onActivePort s k) (record : recordOf t k = recordOf s k)
    (ports : ∀ p, (portOf s p).active = true → (portOf t p).active = true) : onActivePort t k := by
  obtain ⟨p, owner, active⟩ := h
  exact ⟨p, by rw [record]; exact owner, ports p active⟩

/-- Fewer sources run, and what bars them stands. -/
theorem SourcesProtected.of_fewer (h : SourcesProtected s) (fewer : runsFewer s t)
    (bars : ∀ k, mayRun s k → mayRun t k) : SourcesProtected t :=
  fun k running => bars k (h k (fewer k running))

theorem SourcesProtected.of_moved (h : SourcesProtected s) (fewer : runsFewer s t)
    (moved : SourcesMoved s t) : SourcesProtected t :=
  h.of_fewer fewer fun k => (mayRun_of_moved moved k).mpr

end MayRun

/-! ## The period start -/

theorem portOf_eachPort (s : State) (f : PortId → Port → Port) (p : PortId) :
    portOf (eachPort s f) p = f p (portOf s p) := by
  simp [portOf, eachPort]

theorem portOf_raiseOccurrence (k : AlertKind) (s : State) (p : PortId) :
    portOf (raiseOccurrence k s) p = portOf s p := by
  rw [raiseOccurrence_eq]
  rfl

/-- R159: the ports after a period start. -/
theorem active_countSilence (s : State) (p : PortId) :
    (portOf (countSilence s) p).active = ((portOf s p).active && !fallsSilent s p) := by
  have ports : (endGrants .portSilent s ((runningSlots s).filter fun k =>
      ownerFallsSilent s k)).ports = s.ports := (endGrants_moved _ _ _).ports_eq
  have ended : portOf (endGrants .portSilent s ((runningSlots s).filter fun k =>
      ownerFallsSilent s k)) p = portOf s p := by simp only [portOf, ports]
  unfold countSilence
  dsimp only
  split
  · rw [portOf_raiseOccurrence, portOf_eachPort, ended]
  · rw [portOf_eachPort, ended]

theorem evaluateCycle_ports (s : State) : (evaluateCycle s).ports = s.ports := by
  rw [evaluateCycle_eq]
  rfl

theorem fallsSilent_of_ports {s t : State} (ports : t.ports = s.ports) (p : PortId) :
    fallsSilent t p = fallsSilent s p := by
  unfold fallsSilent portOf
  rw [ports]

/-- R159: a port stays ACTIVE at a period start unless it falls silent. -/
theorem active_periodStartTaken (first : Bool) (s : State) (p : PortId) :
    (portOf (periodStartTaken first s) p).active = ((portOf s p).active && !fallsSilent s p) := by
  have ports : (evaluateCycle (expireRequests (endGrants .portSilent (countedState first s)
      (silencedFirst (countedState first s))))).ports = s.ports := by
    rw [evaluateCycle_ports, (expireRequests_moved _).ports_eq, (endGrants_moved _ _ _).ports_eq,
      countedState_ports]
  have last : (periodStartTaken first s).ports = (periodCounted first s).ports := by
    rw [periodStartTaken_eq, State.nextDraw_ports, planAtPeriodStart_eq, State.setPlanner_ports]
    unfold beforePlan
    rw [takeSnapshot_eq, State.setPlanner_ports]
  have port : portOf (periodStartTaken first s) p = portOf (periodCounted first s) p := by
    simp only [portOf, last]
  rw [port]
  unfold periodCounted
  rw [active_countSilence, fallsSilent_of_ports ports]
  simp only [portOf, ports]

theorem SourcesProtected.periodStartTaken {s : State} (h : SourcesProtected s) (first : Bool) :
    SourcesProtected (periodStartTaken first s) := by
  intro k running
  obtain ⟨before, loud⟩ := periodStartTaken_running running
  obtain ⟨part, _, model, safety, store, records, _⟩ := periodStartTaken_periodKept first s
  have record : recordOf (Machine.periodStartTaken first s) k = recordOf s k := by
    simp [recordOf, records]
  refine (h k before).congr part safety (by rw [model]) (by rw [store]) (by rw [store]) record ?_
  rintro ⟨p, owner, active⟩
  refine ⟨p, by rw [record]; exact owner, ?_⟩
  have speaks : fallsSilent s p = false := by simpa [ownerFallsSilent, owner] using loud
  rw [active_periodStartTaken, active, speaks]
  rfl

/-! ## The scan completion -/

theorem mayRun_applyScan {scan : Scan} {s : State} {k : SlotId} (h : mayRun s k)
    (modelled : (applyScan scan s).model.state ≠ .none) : mayRun (applyScan scan s) k := by
  obtain ⟨temperature, stop, _, outside, owner, paid⟩ := h
  exact ⟨temperature, stop, modelled, outside, owner, paid⟩

theorem SourcesProtected.setAlerts {s : State} (h : SourcesProtected s) (x : AlertRouter) :
    SourcesProtected (s.setAlerts x) := h

theorem SourcesProtected.nextDraw {s : State} (h : SourcesProtected s) :
    SourcesProtected s.nextDraw := h

theorem SourcesProtected.setPlanner {s : State} (h : SourcesProtected s) (x : Planner) :
    SourcesProtected (s.setPlanner x) := h

/-- R15, R17, R46, R120: the sources that run on after a completion are those nothing now bars. -/
theorem SourcesProtected.neighboursTake {s : State} {scan : Scan}
    (bars : ∀ k, (grantOf s k).state = .running → s.model.state ≠ .none → mayRun s k) :
    SourcesProtected (neighboursTake scan s) := by
  intro k running
  have before := neighboursTake_runsFewer scan s k running
  unfold Machine.neighboursTake at running ⊢
  split at running
  · exact absurd running (revokeAll_not_running _ s k)
  · rename_i modelled
    rw [if_neg modelled]
    obtain ⟨temperature, rest⟩ := bars k before modelled
    dsimp only at running ⊢
    by_cases after : overtempAfter scan s = true
    · have rises : (overtempAfter scan s && !s.safety.overtemp) = true := by
        rw [after, temperature]; rfl
      rw [if_pos rises] at running
      exact absurd running (revokeAll_not_running _ _ k)
    · have cool : overtempAfter scan s = false := by simpa using after
      rw [cool, Bool.false_and, if_neg (by simp)]
      refine (mayRun_of_moved (endAtTarget_moved _ _) k).mpr ⟨rfl, rest⟩

theorem SourcesProtected.scanApplied {s : State} (h : SourcesProtected s) (scan : Scan) :
    SourcesProtected (scanApplied scan s) := by
  have grants (k : SlotId) : grantOf (applyScan scan s) k = grantOf s k := rfl
  obtain ⟨alerts, eq⟩ := scanApplied_eq scan s
  rw [eq]
  refine (SourcesProtected.setAlerts (SourcesProtected.neighboursTake fun k running modelled => ?_)
    alerts).nextDraw
  rw [grants] at running
  exact mayRun_applyScan (h k running) modelled

theorem endSetupRestoring_protected {s : State} (h : SourcesProtected s) :
    SourcesProtected (endSetupRestoring s) := by
  cases inside : s.store.setup with
  | none => rwa [endSetupRestoring_outside inside]
  | some setup =>
    have atRest := h.atRest ((inSetup_iff s).mpr ⟨setup, inside⟩)
    exact (atRest.fewer (endSetupRestoring_runsFewer s)).sourcesProtected

theorem SourcesProtected.periodStart {s : State} (h : SourcesProtected s) (first : Bool) :
    SourcesProtected (periodStart first s) := by
  unfold Machine.periodStart
  dsimp only
  split
  · exact endSetupRestoring_protected (h.periodStartTaken first)
  · exact h.periodStartTaken first

theorem SourcesProtected.scanCompleted {s : State} (h : SourcesProtected s) (scan : Scan) :
    SourcesProtected (scanCompleted scan s) := by
  unfold Machine.scanCompleted
  dsimp only
  split
  · exact h.scanApplied scan
  · exact (h.scanApplied scan).periodStart true

theorem SourcesProtected.completeIfEmpty {s : State} (h : SourcesProtected s) :
    SourcesProtected (completeIfEmpty s) := by
  unfold Machine.completeIfEmpty
  split
  · exact h
  · exact h.scanCompleted _

/-! ## The plan -/

theorem SourcesProtected.takeGrant {s : State} (h : SourcesProtected s) (e : GrantEntry) :
    SourcesProtected (takeGrant s e) := by
  intro k running
  rw [mayRun_of_moved (takeGrant_moved s e)]
  by_cases same : e.slot = k
  · by_cases takes : grantTakes s e = true
    · rw [← same, ← grantBarred_iff]
      simp only [grantTakes, Bool.and_eq_true, Bool.not_eq_true'] at takes
      exact takes.1
    · have stays : Machine.takeGrant s e = s := by simp [Machine.takeGrant, takes]
      rw [stays] at running
      exact h k running
  · rw [grantOf_takeGrant_other s e k same] at running
    exact h k running

theorem SourcesProtected.takeGrants (entries : List GrantEntry) {s : State}
    (h : SourcesProtected s) : SourcesProtected (entries.foldl Machine.takeGrant s) := by
  induction entries generalizing s with
  | nil => exact h
  | cons e rest ih => exact ih (h.takeGrant e)

theorem rotateRanks_runsFewer (s : State) (winner : SlotId) : runsFewer s (rotateRanks s winner) := by
  intro k running
  rw [grantOf_rotateRanks] at running
  split at running
  · exact running
  · split at running <;> exact running

theorem SourcesProtected.rotate (winners : List GrantEntry) {s : State} (h : SourcesProtected s) :
    SourcesProtected (winners.foldl (fun t e => rotateRanks t e.slot) s) :=
  h.of_moved (runsFewer.foldl (fun (t : State) (e : GrantEntry) => rotateRanks t e.slot)
    (fun u e => rotateRanks_runsFewer u e.slot) winners s) (rotations_moved winners s)

theorem SourcesProtected.publish {s : State} (h : SourcesProtected s) (figures : Published) :
    SourcesProtected (publish figures s) := h

theorem SourcesProtected.applyPlan {s : State} (h : SourcesProtected s) (plan : Plan) :
    SourcesProtected (applyPlan plan s) := by
  have taken := h.takeGrants (plan.grants.filter (entryPasses s))
  have revoked := taken.of_moved (endGrants_runsFewer .plan _ plan.revocations)
    (endGrants_moved .plan _ plan.revocations)
  exact (revoked.rotate _).publish plan.figures

/-! ## The lines -/

/-- R122, R123: a line is active by its settled level and its polarity alone. -/
theorem lineActive_setLine (s : State) (l : Line) (x : InputLine) : lineActive (setLine s l x) l =
    (isRunning s && x.settled == x.activeLevel) := by
  cases l <;> rfl

theorem lineActive_setLine_other (s : State) {l m : Line} (x : InputLine) (h : m ≠ l) :
    lineActive (setLine s l x) m = lineActive s m := by
  have running : isRunning (setLine s l x) = isRunning s := by rw [setLine_eq]; rfl
  simp only [lineActive, running, lineOf_setLine_other s l m x h]

/-- A change of a line that leaves every line's active state. -/
theorem mayRun_setLine {s : State} {l : Line} {x : InputLine} {k : SlotId} (h : mayRun s k)
    (lines : ∀ m, lineActive (setLine s l x) m = lineActive s m ∨
      (lineActive (setLine s l x) m = true → m = .x0 ∧ heldBackByX0 (setLine s l x) k = false)) :
    mayRun (setLine s l x) k := by
  obtain ⟨temperature, stop, modelled, outside, owner, paid⟩ := h
  have sameTemperature : (setLine s l x).safety.overtemp = s.safety.overtemp := by cases l <;> rfl
  have record : recordOf (setLine s l x) k = recordOf s k := by rw [setLine_eq]; rfl
  have image : (setLine s l x).store.image = s.store.image := by rw [setLine_eq]; rfl
  refine ⟨sameTemperature.trans temperature, ?_, ?_, ?_, ?_, ?_⟩
  · rcases lines .x1 with same | onlyX0
    · exact same.trans stop
    · refine Classical.byContradiction fun active => ?_
      exact absurd (onlyX0 (by simpa using active)).1 (by simp)
  · rw [setLine_eq]; exact modelled
  · rw [setLine_eq]; exact outside
  · rw [setLine_eq]; exact owner
  · rw [record]
    intro isPaid obeys
    rcases lines .x0 with same | free
    · rw [image] at obeys
      exact same.trans (paid isPaid obeys)
    · refine Classical.byContradiction fun active => ?_
      have active : lineActive (setLine s l x) .x0 = true := by simpa using active
      have unheld := (free active).2
      simp [heldBackByX0, record, isPaid, obeys, active] at unheld

theorem SourcesProtected.setLine {s : State} (h : SourcesProtected s) (l : Line) {x : InputLine}
    (active : (x.settled == x.activeLevel) = ((lineOf s l).settled == (lineOf s l).activeLevel)) :
    SourcesProtected (setLine s l x) := by
  refine h.of_fewer (.of_table (by rw [setLine_eq]; rfl)) fun k mayRun => ?_
  refine mayRun_setLine mayRun fun m => .inl ?_
  by_cases e : m = l
  · subst e
    rw [lineActive_setLine, active]
    rfl
  · exact lineActive_setLine_other s x e

/-- R126, R127: a line that becomes active stops what it bars at once. -/
theorem SourcesProtected.takeLevel {s : State} (h : SourcesProtected s) (l : Line) (level : Level) :
    SourcesProtected (takeLevel l level s) := by
  have line (x : InputLine) : SourcesProtected (lineEffects s l (Machine.setLine s l x)) := by
    intro k running
    have fewer : runsFewer s (lineEffects s l (Machine.setLine s l x)) :=
      runsFewer.trans (.of_table (by rw [setLine_eq]; rfl)) (lineEffects_runsFewer s l _)
    have before := h k (fewer k running)
    rw [mayRun_of_moved (lineEffects_moved s l _)]
    refine mayRun_setLine before fun m => ?_
    by_cases e : m = l
    · subst e
      by_cases rises : (!lineActive s m && lineActive (Machine.setLine s m x) m) = true
      · refine .inr fun _ => ?_
        unfold lineEffects at running
        rw [if_pos rises] at running
        cases m with
        | x0 =>
          refine ⟨rfl, ?_⟩
          refine Classical.byContradiction fun held => ?_
          exact revokePaidBlock_not_running _ k (by simpa using held) running
        | x1 => exact absurd running (revokeAll_not_running _ _ k)
      · cases now : lineActive (Machine.setLine s m x) m with
        | false => exact .inr fun active => nomatch active
        | true =>
          rw [now] at rises
          exact .inl (by simpa using rises)
    · exact .inl (lineActive_setLine_other s x e)
  exact line { lineOf s l with settled := level, settling := none }

/-- R123: a pin change leaves the settled level and the polarity, or takes the level at once. -/
theorem pinChanged_settles (l : Line) (level : Level) (s : State) :
    ∃ x : InputLine, x.settled = (lineOf s l).settled ∧ x.activeLevel = (lineOf s l).activeLevel ∧
      (pinChanged l level s = setLine s l x ∨
        pinChanged l level s = takeLevel l level (setLine s l x)) := by
  unfold pinChanged
  dsimp only
  split
  · split <;> refine ⟨_, ?_, ?_, .inl rfl⟩ <;> rfl
  · split
    · refine ⟨_, ?_, ?_, .inl rfl⟩ <;> rfl
    · split
      · refine ⟨_, ?_, ?_, .inr rfl⟩ <;> rfl
      · refine ⟨_, ?_, ?_, .inl rfl⟩ <;> rfl

/-! ## The intake -/

theorem SourcesProtected.settleHead {s : State} (h : SourcesProtected s) (p : PortId) :
    SourcesProtected (settleHead p s) := by
  unfold Machine.settleHead
  split
  · exact h
  · rename_i i rest _
    have taken : SourcesProtected (setPostList s p rest) := h
    exact taken.of_moved (settleFrame_runsFewer _ p i) (settleFrame_moved _ p i)

theorem SourcesProtected.settleHeads (ports : List PortId) {s : State} (h : SourcesProtected s) :
    SourcesProtected (ports.foldl (fun t q => Machine.settleHead q t) s) := by
  induction ports generalizing s with
  | nil => exact h
  | cons q rest ih => exact ih (h.settleHead q)

theorem SourcesProtected.takeThenPlan {s : State} (h : SourcesProtected s) (p : PortId) :
    SourcesProtected (takeThenPlan p s) := by
  have asked {x : State} (y : SourcesProtected x) : SourcesProtected (latePlanAsk x) := by
    rw [latePlanAsk_eq]
    exact y.setPlanner _
  have heads : SourcesProtected ((takenBeforePlan (Machine.settleHead p s) p).foldl
      (fun t q => Machine.settleHead q t) (Machine.settleHead p s)).nextDraw :=
    SourcesProtected.settleHeads _ (h.settleHead p)
  unfold Machine.takeThenPlan
  dsimp only
  split
  · split
    · exact asked (asked heads)
    · exact asked heads
  · exact h.settleHead p

/-! ## The partner commands -/

theorem SourcesProtected.of_ports {s t : State} (h : SourcesProtected s)
    (eq : t = s.setPorts t.ports)
    (ports : ∀ p, (portOf s p).active = true → (portOf t p).active = true) : SourcesProtected t := by
  refine h.of_fewer (.of_table (by rw [eq]; rfl)) fun k mayRun => ?_
  exact mayRun.congr (by rw [eq]; rfl) (by rw [eq]; rfl) (by rw [eq]; rfl) (by rw [eq]; rfl)
    (by rw [eq]; rfl) (by rw [eq]; rfl) fun owner => owner.congr (by rw [eq]; rfl) ports

theorem portOf_modPort (s : State) (p q : PortId) (f : Port → Port) : portOf (modPort s p f) q =
    if p = q then f (portOf s q) else portOf s q := by
  by_cases e : p = q
  · subst e
    simp [portOf, modPort]
  · rw [if_neg e]
    simpa [portOf, modPort] using getElem_modifyAt_other s.ports.ports p q f e

theorem SourcesProtected.modPort {s : State} (h : SourcesProtected s) (p : PortId)
    {f : Port → Port} (active : ∀ x : Port, x.active = true → (f x).active = true) :
    SourcesProtected (modPort s p f) := by
  refine h.of_ports rfl fun q before => ?_
  rw [portOf_modPort]
  split
  · exact active _ before
  · exact before

theorem obeyField (k : SlotId) :
    ∃ f ∈ fieldTable, f.offset = recordOffset k + 9 ∧ fieldWidth f = 1 := by
  revert k
  decide +kernel

/-- R42: a write that does not reach the block-obey of a slot leaves it. -/
theorem blockObey_writtenImage (img : Image) {start : Nat} {data : List Byte} {k : SlotId}
    (unreached : ¬(start ≤ recordOffset k + 9 ∧ recordOffset k + 9 < start + data.length)) :
    blockObey (writtenImage img start data) k = blockObey img k := by
  obtain ⟨f, mem, offset, width⟩ := obeyField k
  have found := (fieldAt_of_mem f mem).1
  have below := fieldTable_below f mem
  rw [offset] at found below
  have standing : fieldReached start data.length f = false := by
    rw [fieldReached, offset, width, Bool.and_eq_false_iff, decide_eq_false_iff_not,
      decide_eq_false_iff_not]
    omega
  unfold blockObey imageU8
  rw [imageByte_writtenImage_standing img start data _ f (by omega) found standing]

theorem freshGrant_not_running (img : Image) (k : SlotId) : (freshGrant img k).state ≠ .running := by
  have state : (freshGrant img k).state = if (recordOwner img k).isSome then .idle else .unused := rfl
  rw [state]
  split <;> simp

/-- R42, R170: a write that turns block-obey on stops its source while X0 is active. -/
theorem SourcesProtected.imageWritten {s : State} (h : SourcesProtected s) (start : Nat)
    (data : List Byte) : SourcesProtected (imageWritten start data s) := by
  intro k running
  obtain ⟨part, _, model, _, safety, _, records, _⟩ := imageWritten_kept start data s
  have record : recordOf (Machine.imageWritten start data s) k = recordOf s k := by
    simp [recordOf, records]
  have store := imageWritten_store start data s
  have line (l : Line) : lineActive (Machine.imageWritten start data s) l = lineActive s l := by
    cases l <;> simp [lineActive, isRunning, lineOf, part, safety]
  have port (q : PortId) : portOf (Machine.imageWritten start data s) q = portOf s q := by
    simp [portOf, imageWritten_ports]
  obtain ⟨ends, stands⟩ := grants_imageWritten start data s k
  by_cases blocked : (grantOf s k).state = .running ∧ (recordOf s k).sourceClass = .paid ∧
      lineActive s .x0 = true ∧ start ≤ recordOffset k + 9 ∧
      recordOffset k + 9 < start + data.length ∧
      blockObey (Machine.imageWritten start data s).store.image k = true
  · rw [(ends blocked).1, ← endedGrant_eq_grantEnded] at running
    exact absurd running (endedGrant_not_running _ _ _)
  · rw [(stands blocked).1] at running
    obtain ⟨temperature, stop, modelled, outside, owner, paid⟩ := h k running
    refine ⟨by rw [safety]; exact temperature, by rw [line]; exact stop, by rw [model]; exact modelled,
      by rw [inSetup, store]; exact outside,
      owner.congr record fun q active => by rw [port]; exact active, ?_⟩
    rw [record]
    intro isPaid obeys
    rw [line]
    refine Classical.byContradiction fun active => ?_
    have active : lineActive s .x0 = true := by simpa using active
    by_cases reached : start ≤ recordOffset k + 9 ∧ recordOffset k + 9 < start + data.length
    · exact blocked ⟨running, isPaid, active, reached.1, reached.2, obeys⟩
    · have stands : blockObey (Machine.imageWritten start data s).store.image k =
          blockObey s.store.image k := by
        rw [imageWritten_image]
        exact blockObey_writtenImage _ reached
      have idle := paid isPaid (stands ▸ obeys)
      rw [idle] at active
      cases active

theorem SourcesProtected.served {p : PortId} {s t : State} (h : SourcesProtected s)
    (served : Served p s t) : SourcesProtected t := by
  cases served
  case written n data _ =>
    exact (h.imageWritten (portOf s p).selector data).modPort p fun _ active => active
  case entered =>
    obtain ⟨alerts, eq⟩ := setupEntered_blocks p s
    have stopped : AtRest (entryRevoked p s) := fun k => revokeAll_not_running _ _ k
    refine (stopped.fewer (.of_table ?_)).sourcesProtected
    rw [eq, State.setAlerts_table, State.setPlanner_table, State.setTable_table]
  case exited setup inside _ =>
    have atRest := h.atRest ((inSetup_iff s).mpr ⟨setup, inside⟩)
    rw [setupExited_eq]
    exact (atRest.fewer ((exitTaken_runsFewer s).trans (endSetup_runsFewer _))).sourcesProtected
  case restored => exact endSetupRestoring_protected h
  case selected n => exact h.modPort p fun _ active => active
  case portReset =>
    have reset : SourcesProtected (resetFrames p s) := by
      obtain ⟨pool, table, eq, records⟩ := resetFrames_blocks p s
      refine h.of_fewer (resetFrames_runsFewer p s) fun k mayRun => ?_
      have record := recordOf_resetFrames p s k
      rw [eq] at record ⊢
      exact mayRun.congr rfl rfl rfl rfl rfl record fun owner => owner.congr record fun _ active => active
    have emptied : SourcesProtected (emptyAlerts p (resetFrames p s)) := reset
    exact emptied.modPort p fun _ active => active
  all_goals exact h

theorem Effect.sourcesProtected {s t : State} (effect : Effect s t) (h : SourcesProtected s) :
    SourcesProtected t := by
  cases effect
  case reset part _ =>
    have atRest : AtRest (resetBlocks part s) := fun k => by
      rw [grantOf_fresh (img := factoryImage) rfl]
      exact freshGrant_not_running factoryImage k
    exact atRest.sourcesProtected
  case loaded =>
    have atRest : AtRest (beginScan (settledLoad s)) := by
      obtain ⟨alerts, eq⟩ := settledLoad_eq s
      intro k
      rw [grantOf_fresh (img := imageToLoad s.store.page) (by rw [eq]; rfl)]
      exact freshGrant_not_running _ k
    exact atRest.sourcesProtected.completeIfEmpty
  case scanStarted =>
    have begun : SourcesProtected (beginScan s) := h
    exact begun.completeIfEmpty
  case readEnded n rest scan r _ _ =>
    unfold Machine.readEnded
    dsimp only
    split
    · exact h.scanCompleted _
    · exact h
  case periodStarted => exact h.periodStart false
  case planCompleted plan _ =>
    rw [beginMarkedLatePlan_eq]
    exact ((h.applyPlan plan).setPlanner _).setPlanner _
  case planDropped =>
    rw [beginMarkedLatePlan_eq]
    exact (h.setPlanner _).setPlanner _
  case intake p _ _ => exact h.takeThenPlan p
  case pinSet l level => exact h.setLine l rfl
  case pinChanged l level _ =>
    obtain ⟨x, settled, polarity, eq | eq⟩ := pinChanged_settles l level s <;> rw [eq]
    · exact h.setLine l (by rw [settled, polarity])
    · exact (h.setLine l (by rw [settled, polarity])).takeLevel l level
  case settled l level => exact h.takeLevel l level
  case released part phase =>
    have running : isRunning (s.setPart part) = isRunning s := by simp [isRunning, phase]
    have line (l : Line) : lineActive (s.setPart part) l = lineActive s l := by
      cases l <;> simp only [lineActive, running] <;> rfl
    refine h.of_fewer (.of_table rfl) fun k mayRun => ?_
    obtain ⟨temperature, stop, modelled, outside, owner, paid⟩ := mayRun
    exact ⟨temperature, (line .x1).trans stop, modelled, outside, owner,
      fun isPaid obeys => (line .x0).trans (paid isPaid obeys)⟩
  case served p r t running body =>
    have hears : SourcesProtected (heard p s) := h.modPort p fun _ _ => rfl
    exact (hears.served body).modPort p fun _ active => active
  all_goals exact h

/-- Settles O55: what comes to bar a grant ends it in the same step, and a plan grants only what nothing
bars. -/
theorem stepsProtectSources : Obligations.StepsProtectSources := fun _ _ protect next =>
  step_keeps (Inv := SourcesProtected) (fun _ _ h => h) (fun _ _ h effect => effect.sourcesProtected h)
    protect next

end Sys2Proof.Machine
end

section
/-! SUPPORT. The alerts through every step (R138 to R149, R151): an event that changes no mask and no mode
keeps each LEVEL kind where its condition puts it and delivers each EDGE kind whose condition rises. -/

namespace Sys2Proof.Machine

/-! ## Readers -/

theorem levelPending_iff (s : State) (q : PortId) (k : AlertKind) : levelPending s q k = true ↔
    subscribed s q k = true ∧ condition s k = true ∧ k ∉ awaitingOf s q := by
  simp [levelPending, and_assoc]

theorem levelKindsFollow_iff (s : State) : LevelKindsFollow s ↔ ∀ q k, levelCapable k = true →
    modeOf s k = .level → (k ∈ pendingOf s q ↔ levelPending s q k = true) := by
  simp only [LevelKindsFollow, levelPending_iff]

theorem mode_cases (s : State) (k : AlertKind) : modeOf s k = .level ∨ modeOf s k = .edge := by
  cases modeOf s k
  · exact .inr rfl
  · exact .inl rfl

/-- R138: what the conditions read. -/
theorem condition_congr {s t : State} (probes : t.scanner.probes = s.scanner.probes)
    (model : t.model = s.model) (safety : t.safety = s.safety)
    (cycle : t.cycle.state = s.cycle.state)
    (published : t.planner.published = s.planner.published) (running : isRunning t = isRunning s)
    (k : AlertKind) : condition t k = condition s k := by
  cases k <;> simp [condition, probeFault, modelDegraded, lineActive, lineOf, probes, model, safety,
    cycle, published, running]

section Readers
variable {s t : State}

theorem modeOf_of_modes (h : t.alerts.modes = s.alerts.modes) (k : AlertKind) :
    modeOf t k = modeOf s k := by simp [modeOf, h]

theorem awaitingOf_of_awaiting (h : t.alerts.awaiting = s.alerts.awaiting) (q : PortId) :
    awaitingOf t q = awaitingOf s q := by simp [awaitingOf, h]

theorem subscribed_of_image (h : t.store.image = s.store.image) (q : PortId) (k : AlertKind) :
    subscribed t q k = subscribed s q k := by simp [subscribed, h]

theorem levelPending_congr {q : PortId} {k : AlertKind} (mask : subscribed t q k = subscribed s q k)
    (awaiting : awaitingOf t q = awaitingOf s q) (stands : condition t k = condition s k) :
    levelPending t q k = levelPending s q k := by
  simp only [levelPending, mask, awaiting, stands]

end Readers

/-! ## Events that change no mask and no mode -/

/-- From `s` to `t` the alerts have followed the conditions under the masks and modes in force. -/
structure AlertsStep (s t : State) : Prop where
  modes : t.alerts.modes = s.alerts.modes
  awaiting : t.alerts.awaiting = s.alerts.awaiting
  masks : ∀ q k, subscribed t q k = subscribed s q k
  level : ∀ q k, levelCapable k = true → modeOf s k = .level →
    (k ∈ pendingOf s q ↔ levelPending s q k = true) →
    (k ∈ pendingOf t q ↔ levelPending t q k = true)
  stays : ∀ q k, modeOf s k = .edge → k ∈ pendingOf s q → k ∈ pendingOf t q
  occurs : ∀ q k, levelCapable k = true → modeOf s k = .edge → condition s k = false →
    condition t k = true → subscribed s q k = true → k ∈ pendingOf t q
  joins : ∀ q k, k ∈ pendingOf t q → k ∈ pendingOf s q ∨
    (subscribed s q k = true ∧
      (k ∈ awaitingOf s q → levelCapable k = false ∨ modeOf s k = .edge))

namespace AlertsStep

/-- The alerts, the masks and the conditions stand. -/
theorem of_alerts {s t : State} (alerts : t.alerts = s.alerts)
    (image : t.store.image = s.store.image) (stands : ∀ k, condition t k = condition s k) :
    AlertsStep s t := by
  have pend (q : PortId) : pendingOf t q = pendingOf s q := by simp [pendingOf, alerts]
  refine ⟨by rw [alerts], by rw [alerts], subscribed_of_image image, fun q k _ _ old => ?_,
    fun q k _ old => ?_, fun q k _ _ before after => ?_, fun q k now => .inl ?_⟩
  · rw [pend, levelPending_congr (subscribed_of_image image q k)
      (awaitingOf_of_awaiting (by rw [alerts]) q) (stands k)]
    exact old
  · rw [pend]
    exact old
  · rw [stands, before] at after
    cases after
  · rwa [pend] at now

theorem refl (s : State) : AlertsStep s s := of_alerts rfl rfl fun _ => rfl

variable {s t u : State}

theorem modeOf_eq (h : AlertsStep s t) (k : AlertKind) : modeOf t k = modeOf s k :=
  modeOf_of_modes h.modes k

theorem awaitingOf_eq (h : AlertsStep s t) (q : PortId) : awaitingOf t q = awaitingOf s q :=
  awaitingOf_of_awaiting h.awaiting q

theorem trans (h : AlertsStep s t) (g : AlertsStep t u) : AlertsStep s u := by
  refine ⟨g.modes.trans h.modes, g.awaiting.trans h.awaiting,
    fun q k => (g.masks q k).trans (h.masks q k), fun q k capable mode old => ?_,
    fun q k mode old => ?_, fun q k capable mode before after mask => ?_, fun q k now => ?_⟩
  · exact g.level q k capable ((h.modeOf_eq k).trans mode) (h.level q k capable mode old)
  · exact g.stays q k ((h.modeOf_eq k).trans mode) (h.stays q k mode old)
  · have modeT := (h.modeOf_eq k).trans mode
    cases between : condition t k with
    | true => exact g.stays q k modeT (h.occurs q k capable mode before between mask)
    | false => exact g.occurs q k capable modeT between after ((h.masks q k).trans mask)
  · rcases g.joins q k now with earlier | ⟨mask, bars⟩
    · exact h.joins q k earlier
    · rw [h.masks] at mask
      rw [h.awaitingOf_eq, h.modeOf_eq] at bars
      exact .inr ⟨mask, bars⟩

/-- R142, R143: an event in which the alerts follow the conditions it changed. -/
theorem follow (alerts : u.alerts = s.alerts) (image : u.store.image = s.store.image) :
    AlertsStep s (followConditions s u) := by
  have mode (k : AlertKind) : modeOf u k = modeOf s k := modeOf_of_modes (by rw [alerts]) k
  have pend (q : PortId) : pendingOf u q = pendingOf s q := by simp [pendingOf, alerts]
  have mask (q : PortId) (k : AlertKind) : subscribed u q k = subscribed s q k :=
    subscribed_of_image image q k
  have await (q : PortId) : awaitingOf u q = awaitingOf s q :=
    awaitingOf_of_awaiting (by rw [alerts]) q
  have stands (k : AlertKind) : condition (followConditions s u) k = condition u k := by
    rw [followConditions_eq, condition_setAlerts]
  have level (q : PortId) (k : AlertKind) :
      levelPending (followConditions s u) q k = levelPending u q k :=
    levelPending_congr rfl rfl (stands k)
  refine ⟨by rw [followConditions_modes, alerts], by rw [followConditions_awaiting, alerts],
    fun q k => (subscribed_of_image rfl q k).trans (mask q k), fun q k capable isLevel _ => ?_,
    fun q k isEdge old => ?_, fun q k capable isEdge before after subscribes => ?_,
    fun q k now => ?_⟩
  · rw [mem_pendingOf_followConditions_level s u q k capable ((mode k).trans isLevel), level]
  · cases capable : levelCapable k with
    | true =>
      rw [mem_pendingOf_followConditions_edge s u q k capable ((mode k).trans isEdge), pend]
      exact .inl old
    | false =>
      rw [mem_pendingOf_followConditions_edgeOnly s u q k capable, pend]
      exact old
  · rw [mem_pendingOf_followConditions_edge s u q k capable ((mode k).trans isEdge)]
    rw [stands] at after
    exact .inr ⟨before, after, (mask q k).trans subscribes⟩
  · cases capable : levelCapable k with
    | true =>
      rcases mode_cases s k with isLevel | isEdge
      · rw [mem_pendingOf_followConditions_level s u q k capable ((mode k).trans isLevel),
          levelPending_iff, mask, await] at now
        exact .inr ⟨now.1, fun waits => absurd waits now.2.2⟩
      · rw [mem_pendingOf_followConditions_edge s u q k capable ((mode k).trans isEdge), pend,
          mask] at now
        exact now.imp_right fun risen => ⟨risen.2.2, fun _ => .inr isEdge⟩
    | false =>
      rw [mem_pendingOf_followConditions_edgeOnly s u q k capable, pend] at now
      exact .inl now

/-- R142: an occurrence of an edge-only kind. -/
theorem raise {k : AlertKind} (edgeOnly : levelCapable k = false) (s : State) :
    AlertsStep s (raiseOccurrence k s) := by
  have stands (j : AlertKind) : condition (raiseOccurrence k s) j = condition s j := by
    rw [raiseOccurrence_eq, condition_setAlerts]
  refine ⟨raiseOccurrence_modes k s, raiseOccurrence_awaiting k s, fun _ _ => rfl,
    fun q j capable _ old => ?_, fun q j _ old => ?_, fun q j _ _ before after => ?_,
    fun q j now => ?_⟩
  · have other : j ≠ k := fun e => by
      rw [e, edgeOnly] at capable
      cases capable
    rw [mem_pendingOf_raiseOccurrence, levelPending_congr (t := raiseOccurrence k s) (s := s) rfl rfl
      (stands j)]
    simpa [other] using old
  · rw [mem_pendingOf_raiseOccurrence]
    exact .inl old
  · rw [stands, before] at after
    cases after
  · rw [mem_pendingOf_raiseOccurrence] at now
    rcases now with old | ⟨rfl, subscribes⟩
    · exact .inl old
    · exact .inr ⟨subscribes, fun _ => .inl edgeOnly⟩

theorem moved (h : SourcesMoved s t) : AlertsStep s t :=
  of_alerts h.alerts_eq (by rw [h.store_eq]) h.condition_eq

/-- A change of the planner's own state and counts. -/
theorem setPlanner (s : State) {x : Planner} (published : x.published = s.planner.published) :
    AlertsStep s (s.setPlanner x) :=
  of_alerts rfl rfl (condition_congr rfl rfl rfl rfl published rfl)

theorem nextDraw (s : State) : AlertsStep s s.nextDraw :=
  of_alerts rfl rfl (condition_congr rfl rfl rfl rfl rfl rfl)

/-- R141, R143: what follows the conditions keeps the LEVEL kinds where they should be. -/
theorem levelKindsFollow (h : AlertsStep s t) (old : LevelKindsFollow s) : LevelKindsFollow t := by
  rw [levelKindsFollow_iff] at old ⊢
  intro q k capable mode
  rw [h.modeOf_eq] at mode
  exact h.level q k capable mode (old q k capable mode)

theorem alertSetsFormed (h : AlertsStep s t) (old : AlertSetsFormed s) : AlertSetsFormed t := by
  intro q k
  obtain ⟨subscribes, apart, edge, edgeOnly⟩ := old q k
  rw [h.awaitingOf_eq, h.modeOf_eq, h.masks]
  refine ⟨fun now => ?_, ?_, edge, edgeOnly⟩
  · rcases h.joins q k now with earlier | ⟨mask, _⟩
    · exact subscribes earlier
    · exact mask
  · rintro ⟨now, waits⟩
    rcases h.joins q k now with earlier | ⟨_, bars⟩
    · exact apart ⟨earlier, waits⟩
    · rcases bars waits with only | isEdge
      · exact edge (edgeOnly only) waits
      · exact edge isEdge waits

end AlertsStep

/-! ## The named events -/

theorem advancePeriod_alertsStep (first : Bool) (s : State) : AlertsStep s (advancePeriod first s) :=
  .setPlanner s rfl

theorem countedState_alertsStep (first : Bool) (s : State) : AlertsStep s (countedState first s) :=
  (advancePeriod_alertsStep first s).trans ((AlertsStep.raise (by decide) _).trans
    ((AlertsStep.moved (countSources_moved _)).trans (.moved (ageRequests_moved _))))

theorem evaluateCycle_alertsStep (s : State) : AlertsStep s (evaluateCycle s) := by
  have follow : AlertsStep s (followConditions s (s.setCycle (cycleEvaluated s).1)) :=
    .follow rfl rfl
  unfold evaluateCycle
  dsimp only
  split
  · exact follow.trans (.raise (by decide) _)
  · exact follow

theorem eachPort_alertsStep (s : State) (f : PortId → Port → Port) : AlertsStep s (eachPort s f) :=
  .of_alerts rfl rfl (condition_congr rfl rfl rfl rfl rfl rfl)

theorem modPort_alertsStep (s : State) (p : PortId) (f : Port → Port) :
    AlertsStep s (modPort s p f) :=
  .of_alerts rfl rfl (condition_congr rfl rfl rfl rfl rfl rfl)

theorem countSilence_alertsStep (s : State) : AlertsStep s (countSilence s) := by
  have counted := (AlertsStep.moved (endGrants_moved .portSilent s
    ((runningSlots s).filter fun k => ownerFallsSilent s k))).trans (eachPort_alertsStep _
      fun p port => { port with active := port.active && !fallsSilent s p
                                silence := silenceAfter s.ports.timeout port })
  unfold countSilence
  dsimp only
  split
  · exact counted.trans (.raise (by decide) _)
  · exact counted

theorem planAtPeriodStart_alertsStep (s : State) : AlertsStep s (planAtPeriodStart s) := by
  unfold planAtPeriodStart
  split
  · exact .setPlanner s rfl
  · exact .setPlanner s rfl

theorem takeSnapshot_alertsStep (s : State) : AlertsStep s (takeSnapshot s) := .setPlanner s rfl

theorem periodStartTaken_alertsStep (first : Bool) (s : State) :
    AlertsStep s (periodStartTaken first s) := by
  have counted : AlertsStep s (periodCounted first s) :=
    (countedState_alertsStep first s).trans ((AlertsStep.moved (endGrants_moved _ _ _)).trans
      ((AlertsStep.moved (expireRequests_moved _)).trans
        ((evaluateCycle_alertsStep _).trans (countSilence_alertsStep _))))
  have snapshot : AlertsStep (periodCounted first s) (beforePlan first s) :=
    takeSnapshot_alertsStep _
  rw [periodStartTaken_eq]
  exact counted.trans (snapshot.trans ((planAtPeriodStart_alertsStep _).trans (.nextDraw _)))

/-- R119, R120: the neighbours of a completion leave the alerts and the masks. -/
theorem neighboursTake_alerts (scan : Scan) (s : State) :
    (neighboursTake scan s).alerts = s.alerts ∧ (neighboursTake scan s).store = s.store := by
  obtain ⟨overtemp, moved⟩ := neighboursTake_eq scan s
  exact ⟨moved.alerts_eq, moved.store_eq⟩

theorem scanApplied_alertsStep (scan : Scan) (s : State) : AlertsStep s (scanApplied scan s) := by
  obtain ⟨alerts, store⟩ := neighboursTake_alerts scan (applyScan scan s)
  have follow : AlertsStep s (followConditions s (neighboursTake scan (applyScan scan s))) :=
    .follow alerts (by rw [store]; rfl)
  exact follow.trans (.nextDraw _)

theorem beginScan_alertsStep (s : State) : AlertsStep s (beginScan s) :=
  .of_alerts rfl rfl (condition_congr rfl rfl rfl rfl rfl rfl)

theorem setupLeft_alertsStep (s : State) : AlertsStep s (setupLeft s) := by
  have cleared (x : State) : AlertsStep x (x.setStore { x.store with setup := none }) :=
    .of_alerts rfl rfl (condition_congr rfl rfl rfl rfl rfl rfl)
  have ended (x : State) : AlertsStep x (planEnded x) := .setPlanner x rfl
  exact (beginScan_alertsStep s).trans ((cleared _).trans
    ((ended _).trans (.raise (k := .setupChange) (by decide) _)))

theorem periodStartOfR90_alertsStep (s : State) : AlertsStep s (periodStartOfR90 s) := by
  unfold periodStartOfR90
  split
  · exact periodStartTaken_alertsStep false s
  · exact .refl s

theorem firstPeriodStart_alertsStep (before s : State) : AlertsStep s (firstPeriodStart before s) := by
  unfold firstPeriodStart
  split
  · exact .refl s
  · exact periodStartTaken_alertsStep true s

theorem endSetup_alertsStep (s : State) : AlertsStep s (endSetup s) := by
  refine (setupLeft_alertsStep s).trans ?_
  unfold endSetup
  dsimp only
  split
  · exact periodStartOfR90_alertsStep _
  · split
    · exact (scanApplied_alertsStep _ _).trans (periodStartOfR90_alertsStep _)
    · exact (periodStartOfR90_alertsStep _).trans
        ((scanApplied_alertsStep _ _).trans (firstPeriodStart_alertsStep _ _))

theorem beginMarkedLatePlan_alertsStep (s : State) : AlertsStep s (beginMarkedLatePlan s) := by
  unfold beginMarkedLatePlan
  split
  · split
    · exact .setPlanner s rfl
    · exact .setPlanner s rfl
  · exact .refl s

theorem latePlanAsk_alertsStep (s : State) : AlertsStep s (latePlanAsk s) := by
  have marked : AlertsStep s (markLate s) := .setPlanner s rfl
  unfold latePlanAsk
  split
  · exact marked.trans (beginMarkedLatePlan_alertsStep _)
  · exact marked
  · exact marked
  · exact .refl s

theorem applyPlan_alertsStep (plan : Plan) (s : State) : AlertsStep s (applyPlan plan s) := by
  obtain ⟨u, moved, eq⟩ := applyPlan_eq plan s
  have published (x : State) : AlertsStep x (publish plan.figures x) := .follow rfl rfl
  rw [eq]
  exact (AlertsStep.moved moved).trans (published u)

theorem settleHead_moved (p : PortId) (s : State) : AlertsStep s (settleHead p s) := by
  have taken (l : List FrameId) : AlertsStep s (setPostList s p l) :=
    .of_alerts rfl rfl (condition_congr rfl rfl rfl rfl rfl rfl)
  unfold settleHead
  split
  · exact .refl s
  · exact (taken _).trans (.moved (settleFrame_moved _ p _))

theorem settleHeads_alertsStep (ports : List PortId) (s : State) :
    AlertsStep s (ports.foldl (fun t q => settleHead q t) s) := by
  induction ports generalizing s with
  | nil => exact .refl s
  | cons q rest ih => exact (settleHead_moved q s).trans (ih _)

theorem takeThenPlan_alertsStep (p : PortId) (s : State) : AlertsStep s (takeThenPlan p s) := by
  have heads := (settleHead_moved p s).trans ((settleHeads_alertsStep
    (takenBeforePlan (settleHead p s) p) (settleHead p s)).trans (.nextDraw _))
  unfold takeThenPlan
  dsimp only
  split
  · have asked := heads.trans (latePlanAsk_alertsStep _)
    split
    · exact asked.trans (latePlanAsk_alertsStep _)
    · exact asked
  · exact settleHead_moved p s

theorem setLine_alertsStep (s : State) (l : Line) {x : InputLine}
    (settled : x.settled = (lineOf s l).settled)
    (polarity : x.activeLevel = (lineOf s l).activeLevel) : AlertsStep s (setLine s l x) := by
  refine .of_alerts (by rw [setLine_eq]; rfl) (by rw [setLine_eq]; rfl) fun k => ?_
  cases l <;> cases k <;> try rfl
  · simp only [condition, lineActive_setLine, settled, polarity]
    rfl
  · simp only [condition, lineActive_setLine, settled, polarity]
    rfl

theorem takeLevel_alertsStep (l : Line) (level : Level) (s : State) :
    AlertsStep s (takeLevel l level s) := by
  have moved := lineEffects_moved s l
    (setLine s l { lineOf s l with settled := level, settling := none })
  refine .follow ?_ ?_
  · rw [moved.alerts_eq, setLine_eq]
    rfl
  · rw [moved.store_eq, setLine_eq]
    rfl

theorem storeCompleted_alertsStep (copy readBack : Image) (s : State) :
    AlertsStep s (storeCompleted copy readBack s) := by
  have paged (x : SettingsStore) (image : x.image = s.store.image) : AlertsStep s (s.setStore x) :=
    .of_alerts rfl image (condition_congr rfl rfl rfl rfl rfl rfl)
  unfold storeCompleted
  dsimp only
  split
  · refine AlertsStep.trans (paged _ ?_) (.raise (k := .storeDone) (by decide) _)
    rfl
  · refine AlertsStep.trans (paged _ ?_) (.raise (k := .storeFail) (by decide) _)
    rfl

end Sys2Proof.Machine
end

section
/-! SUPPORT. The operations that change masks, modes or sets of alerts (R139, R144 to R149, R151), and
every command. -/

namespace Sys2Proof.Machine

/-! ## What a step owes the alerts -/

/-- R142: a condition that rises leaves its EDGE kind pending where it stays subscribed. -/
def EdgeDelivered (s t : State) : Prop := ∀ k q, levelCapable k = true → modeOf s k = .edge →
  modeOf t k = .edge → condition s k = false → condition t k = true → subscribed s q k = true →
  subscribed t q k = true → k ∈ pendingOf t q

/-- R141 to R143: the three things a step owes. -/
structure AlertsKept (s t : State) : Prop where
  level : LevelKindsFollow s → LevelKindsFollow t
  formed : AlertSetsFormed s → ImagesInRange s → AlertSetsFormed t
  edge : EdgeDelivered s t

theorem AlertsStep.edgeDelivered {s t : State} (h : AlertsStep s t) : EdgeDelivered s t :=
  fun k q capable mode _ before after mask _ => h.occurs q k capable mode before after mask

theorem AlertsStep.alertsKept {s t : State} (h : AlertsStep s t) : AlertsKept s t :=
  ⟨h.levelKindsFollow, fun formed _ => h.alertSetsFormed formed, h.edgeDelivered⟩

/-- The alerts, the masks and the conditions stand. -/
theorem AlertsKept.of_alerts {s t : State} (alerts : t.alerts = s.alerts)
    (image : t.store.image = s.store.image) (stands : ∀ k, condition t k = condition s k) :
    AlertsKept s t := (AlertsStep.of_alerts alerts image stands).alertsKept

theorem EdgeDelivered.of_conditions {s t : State}
    (stands : ∀ k, levelCapable k = true → condition s k = false → condition t k = false) :
    EdgeDelivered s t := by
  intro k q capable _ _ before after
  rw [stands k capable before] at after
  cases after

/-- What follows an operation follows the conditions on from it. -/
theorem EdgeDelivered.then {s t u : State} (h : EdgeDelivered s t) (g : AlertsStep t u) :
    EdgeDelivered s u := by
  intro k q capable modeS modeU before after maskS maskU
  rw [g.modeOf_eq] at modeU
  rw [g.masks] at maskU
  cases between : condition t k with
  | true => exact g.stays q k modeU (h k q capable modeS modeU before between maskS maskU)
  | false => exact g.occurs q k capable modeU between after maskU

theorem AlertsKept.then {s t u : State} (h : AlertsKept s t) (g : AlertsStep t u) :
    AlertsKept s u :=
  ⟨fun old => g.levelKindsFollow (h.level old),
    fun formed ranged => g.alertSetsFormed (h.formed formed ranged), h.edge.then g⟩

/-! ## A change of the masks -/

/-- R140, R146: every port's mask has been settled to a new image. -/
structure MasksSettled (s t : State) : Prop where
  modes : t.alerts.modes = s.alerts.modes
  awaiting : t.alerts.awaiting = s.alerts.awaiting
  stands : ∀ k, condition t k = condition s k
  follows : ∀ q k, followsMask s t q k

theorem masksSettled (s : State) (x : SettingsStore) :
    MasksSettled s (settleMasks s.store.image (s.setStore x)) := by
  refine ⟨settleMasks_modes _ _, settleMasks_awaiting _ _, fun k => ?_, fun q k => ?_⟩
  · rw [settleMasks_eq, condition_setAlerts]
    exact condition_congr rfl rfl rfl rfl rfl rfl k
  · have settled := settleMask_followsMask s x q k
    have mask : subscribed (settleMasks s.store.image (s.setStore x)) q k =
        subscribed (settleMask s.store.image (s.setStore x) q) q k := by
      rw [settleMasks_eq]
      rfl
    unfold followsMask at settled ⊢
    rw [(settleMasks_at s.store.image (s.setStore x) q).1, mask]
    exact settled

namespace MasksSettled
variable {s t u : State}

theorem modeOf_eq (h : MasksSettled s t) (k : AlertKind) : modeOf t k = modeOf s k :=
  modeOf_of_modes h.modes k

theorem awaitingOf_eq (h : MasksSettled s t) (q : PortId) : awaitingOf t q = awaitingOf s q :=
  awaitingOf_of_awaiting h.awaiting q

theorem levelKindsFollow (h : MasksSettled s t) (old : LevelKindsFollow s) :
    LevelKindsFollow t := by
  intro q k capable mode
  rw [h.modeOf_eq] at mode
  rw [h.stands, h.awaitingOf_eq]
  obtain ⟨same, cleared, set⟩ := h.follows q k
  have before := old q k capable mode
  cases was : subscribed s q k with
  | true =>
    cases now : subscribed t q k with
    | true =>
      rw [same (now.trans was.symm), before, was]
    | false => simp [cleared was now]
  | false =>
    cases now : subscribed t q k with
    | true => simp [(set was now).1 mode]
    | false =>
      rw [same (now.trans was.symm), before, was]

theorem alertSetsFormed (h : MasksSettled s t) (old : AlertSetsFormed s) : AlertSetsFormed t := by
  intro q k
  obtain ⟨subscribes, apart, edge, edgeOnly⟩ := old q k
  obtain ⟨same, cleared, set⟩ := h.follows q k
  rw [h.awaitingOf_eq, h.modeOf_eq]
  refine ⟨fun now => ?_, ?_, edge, edgeOnly⟩
  · refine Classical.byContradiction fun unsubscribed => ?_
    have unsubscribed : subscribed t q k = false := by simpa using unsubscribed
    cases was : subscribed s q k with
    | true => exact cleared was unsubscribed now
    | false =>
      have mask := subscribes ((same (unsubscribed.trans was.symm)).mp now)
      rw [was] at mask
      cases mask
  · rintro ⟨now, waits⟩
    cases was : subscribed s q k with
    | true =>
      cases mask : subscribed t q k with
      | true => exact apart ⟨(same (mask.trans was.symm)).mp now, waits⟩
      | false => exact cleared was mask now
    | false =>
      cases mask : subscribed t q k with
      | true =>
        rcases mode_cases s k with isLevel | isEdge
        · exact (((set was mask).1 isLevel).mp now).2 waits
        · exact edge isEdge waits
      | false => exact apart ⟨(same (mask.trans was.symm)).mp now, waits⟩

/-- R142, R146: the masks are settled after an event. -/
theorem edgeDelivered_after (before : AlertsStep s t) (h : MasksSettled t u) :
    EdgeDelivered s u := by
  intro k q capable modeS _ conditionS conditionU maskS maskU
  rw [h.stands] at conditionU
  have maskT := (before.masks q k).trans maskS
  obtain ⟨same, _, _⟩ := h.follows q k
  exact (same (maskU.trans maskT.symm)).mpr
    (before.occurs q k capable modeS conditionS conditionU maskS)

theorem alertsKept_after (before : AlertsStep s t) (h : MasksSettled t u) : AlertsKept s u :=
  ⟨fun old => h.levelKindsFollow (before.levelKindsFollow old),
    fun formed _ => h.alertSetsFormed (before.alertSetsFormed formed),
    edgeDelivered_after before h⟩

end MasksSettled

theorem endSetupRestoring_alertsKept {s t : State} (before : AlertsStep s t) :
    AlertsKept s (endSetupRestoring t) := by
  cases inside : t.store.setup with
  | none =>
    rw [endSetupRestoring_outside inside]
    exact before.alertsKept
  | some setup =>
    have settled : MasksSettled t (imageRestored setup t) := masksSettled t _
    rw [endSetupRestoring_of_setup inside]
    exact (MasksSettled.alertsKept_after before settled).then (endSetup_alertsStep _)

theorem periodStart_alertsKept {s t : State} (before : AlertsStep s t) (first : Bool) :
    AlertsKept s (periodStart first t) := by
  have taken := before.trans (periodStartTaken_alertsStep first t)
  unfold periodStart
  dsimp only
  split
  · exact endSetupRestoring_alertsKept taken
  · exact taken.alertsKept

theorem scanCompleted_alertsKept {s t : State} (before : AlertsStep s t) (scan : Scan) :
    AlertsKept s (scanCompleted scan t) := by
  have applied := before.trans (scanApplied_alertsStep scan t)
  unfold scanCompleted
  dsimp only
  split
  · exact applied.alertsKept
  · exact periodStart_alertsKept applied true

theorem completeIfEmpty_alertsKept {s t : State} (before : AlertsStep s t) :
    AlertsKept s (completeIfEmpty t) := by
  unfold completeIfEmpty
  split
  · exact before.alertsKept
  · exact scanCompleted_alertsKept before _

/-! ## A change of the modes -/

theorem changeModes_levelKindsFollow {s : State} (new : Vector TriggerMode 16)
    (old : LevelKindsFollow s) : LevelKindsFollow (changeModes new s) := by
  intro q k capable mode
  have newMode : new[k.number] = .level := mode
  have stands : condition (changeModes new s) k = condition s k := by
    rw [changeModes_eq, condition_setAlerts]
  have mask : subscribed (changeModes new s) q k = subscribed s q k := rfl
  rw [mem_pendingOf_changeModes, mem_awaitingOf_changeModes, stands, mask]
  by_cases same : s.alerts.modes[k.number] = new[k.number]
  · rw [if_pos same, old q k capable (same.trans newMode)]
    simp only [same, and_true]
  · rw [if_neg same]
    have gone : ¬(k ∈ awaitingOf s q ∧ s.alerts.modes[k.number] = new[k.number]) :=
      fun waits => same waits.2
    exact ⟨fun now => ⟨now.2.1, now.2.2, gone⟩, fun now => ⟨newMode, now.1, now.2.1⟩⟩

theorem changeModes_alertSetsFormed {s : State} {new : Vector TriggerMode 16}
    (edgeOnly : ∀ k : AlertKind, levelCapable k = false → new[k.number] = .edge)
    (old : AlertSetsFormed s) : AlertSetsFormed (changeModes new s) := by
  intro q k
  obtain ⟨subscribes, apart, edge, _⟩ := old q k
  have mode : modeOf (changeModes new s) k = new[k.number] := rfl
  have mask : subscribed (changeModes new s) q k = subscribed s q k := rfl
  rw [mem_pendingOf_changeModes, mem_awaitingOf_changeModes, mode, mask]
  refine ⟨fun now => ?_, ?_, ?_, edgeOnly k⟩
  · split at now
    · exact subscribes now
    · exact now.2.1
  · rintro ⟨now, waits, same⟩
    rw [if_pos same] at now
    exact apart ⟨now, waits⟩
  · rintro isEdge ⟨waits, same⟩
    exact edge (same.trans isEdge) waits

/-- R139: the modes an image in range sets. -/
theorem copiedModes_edgeOnly {img : Image} (range : imageInRange img) (k : AlertKind)
    (edgeOnly : levelCapable k = false) : (copiedModes img)[k.number] = .edge := by
  simp [copiedModes, levelSelected_edgeOnly img range k edgeOnly]

theorem changeModes_alertsKept (s : State) :
    AlertsKept s (changeModes (copiedModes s.store.image) s) := by
  refine ⟨changeModes_levelKindsFollow _, fun formed range => ?_, .of_conditions fun k _ before => ?_⟩
  · exact changeModes_alertSetsFormed (copiedModes_edgeOnly range.1) formed
  · rwa [changeModes_eq, condition_setAlerts]

/-! ## The accepted exit -/

theorem poolCopied_alerts (s : State) :
    (poolCopied s).alerts = s.alerts ∧ (poolCopied s).store = s.store := by
  have shares (x : State) : (exitShares x).alerts = x.alerts ∧ (exitShares x).store = x.store := by
    unfold exitShares
    dsimp only
    split <;> exact ⟨rfl, rfl⟩
  have sources (x : State) : (exitSources x).alerts = x.alerts ∧ (exitSources x).store = x.store := by
    have moved := endRequests_moved (fun _ => FrameOutcome.withdrawn) (recordsCopied x) (isWithdrawn x)
    rw [exitSources_eq]
    exact ⟨moved.alerts_eq, moved.store_eq⟩
  unfold poolCopied
  rw [(shares _).1, (shares _).2, (sources _).1, (sources _).2]
  exact ⟨rfl, rfl⟩

theorem exitCopies_alerts (s : State) : (exitCopies s).alerts = s.alerts := by
  obtain ⟨cycle, ports, eq⟩ := exitCopies_eq s
  rw [eq, State.setPorts_alerts, State.setCycle_alerts, (exitLines_moved _).alerts_eq,
    State.setSafety_alerts]
  unfold planCopied
  rw [State.setPlanner_alerts, (poolCopied_alerts s).1]

theorem exitTaken_alertsKept (s : State) : AlertsKept s (exitTaken s) :=
  (changeModes_alertsKept s).then (.follow (exitCopies_alerts _) (by rw [exitCopies_store]))

/-! ## ALERT-TAKE, ALERT-DONE and PORT-RESET -/

section Sets
variable {s : State} {p : PortId} {k : AlertKind}

theorem pendingOf_takeKind_other {q : PortId} (other : p ≠ q) :
    pendingOf (takeKind s p k) q = pendingOf s q ∧ awaitingOf (takeKind s p k) q = awaitingOf s q := by
  constructor
  · simpa [pendingOf, takeKind] using getElem_modifyAt_other s.alerts.pendingKinds p q _ other
  · simpa [awaitingOf, takeKind] using getElem_modifyAt_other s.alerts.awaiting p q _ other

theorem pendingOf_acknowledgeKind_other {q : PortId} (other : p ≠ q) :
    pendingOf (acknowledgeKind s p k) q = pendingOf s q ∧
      awaitingOf (acknowledgeKind s p k) q = awaitingOf s q := by
  constructor
  · simpa [pendingOf, acknowledgeKind] using getElem_modifyAt_other s.alerts.pendingKinds p q _ other
  · simpa [awaitingOf, acknowledgeKind] using getElem_modifyAt_other s.alerts.awaiting p q _ other

/-- A change of the two sets of one port. -/
theorem AlertsKept.of_sets {t : State} (eq : t = s.setAlerts t.alerts)
    (modes : t.alerts.modes = s.alerts.modes)
    (others : ∀ q, p ≠ q → pendingOf t q = pendingOf s q ∧ awaitingOf t q = awaitingOf s q)
    (level : ∀ j, levelCapable j = true → modeOf s j = .level →
      (j ∈ pendingOf s p ↔ levelPending s p j = true) →
      (j ∈ pendingOf t p ↔ subscribed s p j = true ∧ condition s j = true ∧ j ∉ awaitingOf t p))
    (formed : ∀ j, (j ∈ pendingOf s p → subscribed s p j = true) →
      ¬(j ∈ pendingOf s p ∧ j ∈ awaitingOf s p) → (modeOf s j = .edge → j ∉ awaitingOf s p) →
      (j ∈ pendingOf t p → subscribed s p j = true) ∧
        ¬(j ∈ pendingOf t p ∧ j ∈ awaitingOf t p) ∧ (modeOf s j = .edge → j ∉ awaitingOf t p)) :
    AlertsKept s t := by
  have stands (j : AlertKind) : condition t j = condition s j := by rw [eq, condition_setAlerts]
  have mask (q : PortId) (j : AlertKind) : subscribed t q j = subscribed s q j := by rw [eq]; rfl
  have mode (j : AlertKind) : modeOf t j = modeOf s j := modeOf_of_modes modes j
  refine ⟨fun old q j capable isLevel => ?_, fun old _ q j => ?_, .of_conditions fun j _ before => ?_⟩
  · rw [mode] at isLevel
    rw [mask, stands]
    have before := old q j capable isLevel
    by_cases e : p = q
    · subst e
      rw [← levelPending_iff] at before
      exact level j capable isLevel before
    · rw [(others q e).1, (others q e).2]
      exact before
  · obtain ⟨subscribes, apart, edge, edgeOnly⟩ := old q j
    rw [mode, mask]
    by_cases e : p = q
    · subst e
      obtain ⟨subscribes, apart, edge⟩ := formed j subscribes apart edge
      exact ⟨subscribes, apart, edge, edgeOnly⟩
    · rw [(others q e).1, (others q e).2]
      exact ⟨subscribes, apart, edge, edgeOnly⟩
  · rwa [stands]

theorem takeKind_alertsKept (s : State) (p : PortId) (k : AlertKind) :
    AlertsKept s (takeKind s p k) := by
  refine .of_sets (p := p) rfl rfl (fun q e => pendingOf_takeKind_other e)
    (fun j _ isLevel old => ?_) fun j subscribes apart edge => ?_
  · rw [mem_pendingOf_takeKind, mem_awaitingOf_takeKind, old, levelPending_iff]
    by_cases e : j = k
    · subst e
      simp [isLevel]
    · simp [e]
  · rw [mem_pendingOf_takeKind, mem_awaitingOf_takeKind]
    refine ⟨fun now => subscribes now.1, ?_, ?_⟩
    · rintro ⟨now, waits | taken⟩
      · exact apart ⟨now.1, waits⟩
      · exact now.2 taken.1
    · rintro isEdge (waits | ⟨rfl, isLevel⟩)
      · exact edge isEdge waits
      · rw [isEdge] at isLevel
        cases isLevel

/-- R145: only a kind that awaits clear is acknowledged. -/
theorem acknowledgeKind_alertsKept (waiting : k ∈ awaitingOf s p) :
    AlertsKept s (acknowledgeKind s p k) := by
  refine .of_sets (p := p) rfl rfl (fun q e => pendingOf_acknowledgeKind_other e)
    (fun j _ isLevel old => ?_) fun j subscribes apart edge => ?_
  · rw [mem_pendingOf_acknowledgeKind, mem_awaitingOf_acknowledgeKind, old, levelPending_iff]
    by_cases e : j = k
    · subst e
      simp [waiting]
    · simp [e]
  · rw [mem_pendingOf_acknowledgeKind, mem_awaitingOf_acknowledgeKind]
    refine ⟨?_, ?_, fun isEdge waits => edge isEdge waits.1⟩
    · rintro (old | ⟨rfl, mask, _⟩)
      · exact subscribes old
      · exact mask
    · rintro ⟨old | ⟨e, _⟩, waits, other⟩
      · exact apart ⟨old, waits⟩
      · exact other e

theorem emptyAlerts_alertsKept (p : PortId) (s : State) : AlertsKept s (emptyAlerts p s) := by
  refine .of_sets (p := p) rfl rfl (fun q e => emptyAlerts_other p q s e)
    (fun j _ isLevel _ => ?_) fun j _ _ _ => ?_
  · rw [mem_pendingOf_emptyAlerts, awaitingOf_emptyAlerts]
    simp [isLevel]
  · rw [mem_pendingOf_emptyAlerts, awaitingOf_emptyAlerts]
    exact ⟨fun now => now.2.1, fun now => (nomatch now.2), fun _ waits => nomatch waits⟩

end Sets

/-! ## The reset and the load -/

/-- R151: alerts after a reset, under masks that subscribe nothing. -/
theorem freshAlerts_alertSetsFormed {s : State} {img : Image} (range : imageInRange img)
    (alerts : s.alerts = freshAlerts img) : AlertSetsFormed s := by
  have pend (q : PortId) : pendingOf s q = [] := by simp [pendingOf, alerts, freshAlerts]
  have await (q : PortId) : awaitingOf s q = [] := by simp [awaitingOf, alerts, freshAlerts]
  have mode (k : AlertKind) : modeOf s k = (copiedModes img)[k.number] := by
    simp [modeOf, alerts, freshAlerts]
  intro q k
  rw [pend, await, mode]
  exact ⟨fun now => (nomatch now), fun now => (nomatch now.1), fun _ waits => (nomatch waits),
    copiedModes_edgeOnly range k⟩

theorem subscribed_factory {s : State} (image : s.store.image = factoryImage) (q : PortId)
    (k : AlertKind) : subscribed s q k = false := by
  have mask : subscriptionMask factoryImage q = 0 := by
    revert q
    decide +kernel
  simp [subscribed, image, maskHas, mask]

theorem factory_levelKindsFollow {s : State} (image : s.store.image = factoryImage)
    (alerts : s.alerts = freshAlerts factoryImage) : LevelKindsFollow s := by
  intro q k _ _
  have pend : pendingOf s q = [] := by simp [pendingOf, alerts, freshAlerts]
  rw [pend, subscribed_factory image]
  simp

theorem EdgeDelivered.of_unsubscribed {s t : State}
    (none : ∀ q k, subscribed t q k = false) : EdgeDelivered s t := by
  intro k q _ _ _ _ _ _ mask
  rw [none] at mask
  cases mask

/-- R143, R151: what has just followed the conditions keeps every LEVEL kind. -/
theorem followConditions_levelKindsFollow (before s : State) :
    LevelKindsFollow (followConditions before s) := by
  rw [levelKindsFollow_iff]
  intro q k capable mode
  have stands : condition (followConditions before s) k = condition s k := by
    rw [followConditions_eq, condition_setAlerts]
  have level : levelPending (followConditions before s) q k = levelPending s q k :=
    levelPending_congr rfl rfl stands
  rw [mem_pendingOf_followConditions_level before s q k capable mode, level]

theorem freshProbe_notFailed (img : Image) (n : ProbeId) : (freshProbe img n).state ≠ .failed := by
  unfold freshProbe
  dsimp only
  split <;> simp

/-- R178: before the pins are read the load raises no condition. -/
theorem condition_copiesLoaded {s : State} (halted : isRunning s = false) (img : Image)
    (k : AlertKind) (before : condition s k = false) : condition (copiesLoaded img s) k = false := by
  have running : isRunning (copiesLoaded img s) = false := halted
  cases k <;> try exact before
  case probeFault =>
    have probes : (copiesLoaded img s).scanner = freshScanner img := rfl
    have notFailed := freshProbe_notFailed img
    simp only [condition, probeFault, probes, freshScanner, List.any_eq_false]
    intro n _
    have state := notFailed n
    simp [state]
  case disinfectActive =>
    have cycle : (copiesLoaded img s).cycle = freshCycle img := rfl
    simp only [condition, cycle, freshCycle]
    split <;> rfl
  case comfortLow => rfl
  case reserveYield => rfl
  case inputX0 => simp [condition, lineActive, running]
  case inputX1 => simp [condition, lineActive, running]

theorem settledLoad_alertsKept {s : State} (halted : isRunning s = false) :
    AlertsKept s (settledLoad s) := by
  have range := imageInRange_imageToLoad s.store.page
  unfold settledLoad
  dsimp only
  generalize imageToLoad s.store.page = img at range ⊢
  have pins : AlertsStep (copiesLoaded img s)
      (followConditions (copiesLoaded img s) (pinsRead (copiesLoaded img s))) := .follow rfl rfl
  have formed : AlertSetsFormed (copiesLoaded img s) := freshAlerts_alertSetsFormed range rfl
  have followed : AlertsKept s
      (followConditions (copiesLoaded img s) (pinsRead (copiesLoaded img s))) := by
    refine ⟨fun _ => followConditions_levelKindsFollow _ _,
      fun _ _ => pins.alertSetsFormed formed, fun k q capable _ mode before after _ mask => ?_⟩
    rw [pins.modeOf_eq] at mode
    rw [pins.masks] at mask
    exact pins.occurs q k capable mode (condition_copiesLoaded halted img k before) after mask
  refine followed.then ?_
  unfold announceLoss
  split
  · exact .raise (by decide) _
  · exact .refl _

/-- R158: after a load every port is SILENT. -/
theorem freshPorts_silent {s : State} {img : Image} (ports : s.ports = freshPorts img)
    (p : PortId) : (portOf s p).active = false := by
  simp [portOf, ports, freshPorts, resetPort]

theorem scanApplied_ports (scan : Scan) (s : State) : (scanApplied scan s).ports = s.ports := by
  obtain ⟨overtemp, moved⟩ := neighboursTake_eq scan (applyScan scan s)
  obtain ⟨alerts, eq⟩ := scanApplied_eq scan s
  rw [eq, State.nextDraw_ports, State.setAlerts_ports, moved.ports_eq]
  rfl

/-- R160: with every port SILENT no setup holder falls silent, and no mask is restored. -/
theorem completeIfEmpty_alertsStep {s : State} (silent : ∀ p, (portOf s p).active = false) :
    AlertsStep s (completeIfEmpty s) := by
  have loud (scan : Scan) : holderFallsSilent (scanApplied scan s) = false := by
    unfold holderFallsSilent
    split
    · rfl
    · rename_i p _
      rw [fallsSilent_of_ports (scanApplied_ports scan s), fallsSilent, silent, Bool.false_and,
        Bool.false_and]
  unfold completeIfEmpty
  split
  · exact .refl s
  · rename_i scan _
    unfold scanCompleted
    dsimp only
    split
    · exact scanApplied_alertsStep scan s
    · unfold periodStart
      rw [loud]
      exact (scanApplied_alertsStep scan s).trans (periodStartTaken_alertsStep true _)

/-! ## Every command -/

/-- An operation after an event that leaves the alerts, the masks and the conditions. -/
theorem AlertsKept.after {s t u : State} (alerts : t.alerts = s.alerts) (store : t.store = s.store)
    (stands : ∀ k, condition t k = condition s k) (h : AlertsKept t u) : AlertsKept s u := by
  have step : AlertsStep s t := .of_alerts alerts (by rw [store]) stands
  refine ⟨fun old => h.level (step.levelKindsFollow old), fun formed range => ?_,
    fun k q capable modeS modeU before after maskS maskU => ?_⟩
  · exact h.formed (step.alertSetsFormed formed) (by simpa only [ImagesInRange, store] using range)
  · exact h.edge k q capable ((step.modeOf_eq k).trans modeS) modeU ((stands k).trans before) after
      ((step.masks q k).trans maskS) maskU

theorem Served.alertsKept {p : PortId} {s t : State} (h : Served p s t) : AlertsKept s t := by
  cases h
  case alertTaken k _ => exact takeKind_alertsKept s p k
  case acknowledged k waiting => exact acknowledgeKind_alertsKept waiting
  case selected n => exact (modPort_alertsStep s p _).alertsKept
  case written n data permitted =>
    have stored : MasksSettled s (storeWritten (portOf s p).selector data s) := masksSettled s _
    have kept := (MasksSettled.alertsKept_after (.refl s) stored).then
      (.moved (imageWritten_moved (portOf s p).selector data s))
    exact kept.then (modPort_alertsStep _ p _)
  case entered =>
    have begun : AlertsStep s (s.setStore (storeEntered p s)) :=
      .of_alerts rfl rfl (condition_congr rfl rfl rfl rfl rfl rfl)
    have planner := (entryRevoked_moved p s).planner_eq
    have published : (plannerSuspended s).published = (entryRevoked p s).planner.published := by
      rw [planner]
      rfl
    rw [setupEntered_eq]
    exact (begun.trans ((AlertsStep.moved (entryRevoked_moved p s)).trans
      ((AlertsStep.setPlanner _ published).trans (.raise (by decide) _)))).alertsKept
  case exited =>
    rw [setupExited_eq]
    exact (exitTaken_alertsKept s).then (endSetup_alertsStep _)
  case restored => exact endSetupRestoring_alertsKept (.refl s)
  case portReset =>
    obtain ⟨x, table, eq, _⟩ := resetFrames_blocks p s
    have reset : AlertsKept s (emptyAlerts p (resetFrames p s)) := by
      refine (emptyAlerts_alertsKept p (resetFrames p s)).after ?_ ?_ ?_ <;> rw [eq]
      · rfl
      · rfl
      · exact condition_congr rfl rfl rfl rfl rfl rfl
    exact reset.then (modPort_alertsStep _ p _)
  all_goals exact .of_alerts rfl rfl (condition_congr rfl rfl rfl rfl rfl rfl)

theorem Effect.alertsKept {s t : State} (h : Effect s t) : AlertsKept s t := by
  cases h
  case unchanged => exact (AlertsStep.refl s).alertsKept
  case reset part _ =>
    exact ⟨fun _ => factory_levelKindsFollow rfl rfl,
      fun _ _ => freshAlerts_alertSetsFormed imageInRange_factoryImage rfl,
      .of_unsubscribed (subscribed_factory rfl)⟩
  case loaded halted =>
    have silent (p : PortId) : (portOf (beginScan (settledLoad s)) p).active = false := by
      obtain ⟨alerts, eq⟩ := settledLoad_eq s
      rw [eq]
      exact freshPorts_silent (img := imageToLoad s.store.page) rfl p
    rw [loadCompleted_eq]
    exact (settledLoad_alertsKept halted).then
      ((beginScan_alertsStep _).trans (completeIfEmpty_alertsStep silent))
  case scanStarted => exact completeIfEmpty_alertsKept (beginScan_alertsStep s)
  case readEnded n rest scan r _ _ =>
    unfold Machine.readEnded
    dsimp only
    split
    · exact scanCompleted_alertsKept (.refl s) _
    · exact .of_alerts rfl rfl (condition_congr rfl rfl rfl rfl rfl rfl)
  case periodStarted => exact periodStart_alertsKept (.refl s) false
  case planCompleted plan _ =>
    have ended (x : State) : AlertsStep x (planEnded x) := .setPlanner x rfl
    exact ((applyPlan_alertsStep plan s).trans ((ended _).trans
      (beginMarkedLatePlan_alertsStep _))).alertsKept
  case planDropped =>
    have ended (x : State) : AlertsStep x (planEnded x) := .setPlanner x rfl
    exact ((ended s).trans (beginMarkedLatePlan_alertsStep _)).alertsKept
  case intake p _ _ => exact (takeThenPlan_alertsStep p s).alertsKept
  case pinSet l level =>
    refine AlertsStep.alertsKept ?_
    exact setLine_alertsStep s l rfl rfl
  case pinChanged l level _ =>
    obtain ⟨x, settled, polarity, eq | eq⟩ := pinChanged_settles l level s <;> rw [eq]
    · exact (setLine_alertsStep s l settled polarity).alertsKept
    · exact ((setLine_alertsStep s l settled polarity).trans
        (takeLevel_alertsStep l level _)).alertsKept
  case settled l level => exact (takeLevel_alertsStep l level s).alertsKept
  case storeCompleted copy readBack => exact (storeCompleted_alertsStep copy readBack s).alertsKept
  case ticked n => exact .of_alerts rfl rfl (condition_congr rfl rfl rfl rfl rfl rfl)
  case released part phase =>
    have running : isRunning (s.setPart part) = isRunning s := by simp [isRunning, phase]
    exact .of_alerts rfl rfl (condition_congr rfl rfl rfl rfl rfl running)
  case served p r t running body =>
    have heardKept : AlertsKept s t := AlertsKept.after (t := heard p s) rfl rfl
      (condition_congr rfl rfl rfl rfl rfl rfl) body.alertsKept
    exact heardKept.then (modPort_alertsStep _ p _)

theorem step_effect {s t : State} (h : step s = .next t) :
    t = s ∨ ∃ queue, Effect (s.setPending queue) t := by
  cases waiting : s.pending with
  | nil =>
    simp only [step, waiting] at h
    cases h
    exact .inl rfl
  | cons c rest =>
    rw [step_cons waiting] at h
    obtain ⟨u, eq, effect⟩ := exec_effect c (s.setPending rest)
    rw [eq] at h
    cases h
    exact .inr ⟨rest, effect⟩

/-- Settles O59: each operation re-evaluates the kinds whose condition, mask or mode it changes. -/
theorem stepsKeepLevelKinds : Obligations.StepsKeepLevelKinds := by
  intro s t next
  have kept : AlertsKept s t := by
    rcases step_effect next with rfl | ⟨queue, effect⟩
    · exact (AlertsStep.refl t).alertsKept
    · exact AlertsKept.after (t := s.setPending queue) rfl rfl
        (condition_congr rfl rfl rfl rfl rfl rfl) effect.alertsKept
  exact ⟨kept.level, kept.formed, kept.edge⟩

end Sys2Proof.Machine
end

section
/-! SUPPORT. What the reading commands and the frame commands answer (R66 to R73, R162 to R164, R184,
R185): a served command is its answer to the port just heard. -/

namespace Sys2Proof.Machine

/-! ## A command that decodes -/

section Served
variable {c : Instr} {p : PortId} {body : State → Answer} {s : State}

theorem exec_served (h : partnerAnswer c = some (p, body)) (decoding : decodes s p = true) :
    exec c s = .next (answered p (body (heard p s))) := by
  rw [exec_partner s h, serve_decodes p body s decoding]

/-- A command that answers and acts on nothing but its port's liveness. -/
theorem exec_answers (h : partnerAnswer c = some (p, body)) (decoding : decodes s p = true)
    {r : Response} (answer : body (heard p s) = (r, heard p s)) :
    exec c s = .next (s.setPorts (replied s p r)) := by
  rw [exec_served h decoding, answer, answered_heard]

theorem exec_refused (h : partnerAnswer c = some (p, body)) (decoding : decodes s p = true)
    {status : Status} (answer : body (heard p s) = refused status (heard p s)) :
    exec c s = .next (refusedWith s p status) := by
  rw [exec_served h decoding, answer, answered_refused]

/-- A command that answers and acts on the Request Pool alone. -/
theorem exec_pool (h : partnerAnswer c = some (p, body)) (decoding : decodes s p = true)
    {r : Response} {x : RequestPool} (answer : body (heard p s) = (r, (heard p s).setPool x)) :
    exec c s = .next ((s.setPorts (replied s p r)).setPool x) := by
  rw [exec_served h decoding, answer, answered_heard_setPool]

end Served

/-- The ports once a command has been heard. -/
theorem portOf_heard (p q : PortId) (s : State) : portOf (heard p s) q =
    if p = q then { portOf s q with active := true, silence := 0 } else portOf s q :=
  portOf_modPort s p q _

/-! ## Flag bytes -/

theorem testBit_flags (flags : List Bool) (j : Nat) :
    (flags.foldr (fun (f : Bool) rest => f.toNat + 2 * rest) 0).testBit j = flags.getD j false := by
  induction flags generalizing j with
  | nil => simp
  | cons f rest ih =>
    rw [List.foldr_cons]
    cases j with
    | zero => cases f <;> simp [Nat.testBit_zero, Nat.add_mod]
    | succ j =>
      have half : (f.toNat + 2 * rest.foldr (fun (f : Bool) rest => f.toNat + 2 * rest) 0) / 2 =
          rest.foldr (fun (f : Bool) rest => f.toNat + 2 * rest) 0 := by
        have := Bool.toNat_le f
        omega
      rw [Nat.testBit_succ, half, ih]
      simp

/-- R182 to R185: a flag byte carries its flags by bit number, and 0 above them. -/
theorem getLsbD_flagByte (flags : List Bool) (few : flags.length ≤ 8) (j : Nat) :
    (flagByte flags).getLsbD j = flags.getD j false := by
  rw [flagByte, byteOf, BitVec.getLsbD_ofNat, testBit_flags]
  by_cases below : j < 8
  · simp [below]
  · have beyond : flags.length ≤ j := by omega
    simp [below, beyond]

/-- Settles O5. -/
theorem identAnswers : Obligations.IdentAnswers := by
  intro p s decoding
  have bit := getLsbD_flagByte
    [s.part.cause.powerOn, s.part.cause.resetPin, s.part.cause.supplyLow, s.part.cause.restart]
    (by simp)
  refine ⟨resetCauseByte s.part.cause,
    exec_answers (body := fun t => accepted (identBytes t) t) rfl decoding rfl, bit 0, bit 1, bit 2, bit 3,
    fun j above => ?_⟩
  refine (bit j).trans ?_
  rw [List.getD_eq_getElem?_getD, List.getElem?_eq_none (by simpa using above)]
  rfl

/-! ## STATUS -/

theorem portActive_heard (p q : PortId) (s : State) :
    portActive (heard p s) q = (decide (q = p) || (portOf s q).active) := by
  rw [portActive, portOf_heard]
  by_cases e : p = q
  · simp [e]
  · simp [e, Ne.symm e]

theorem silence_heard (p q : PortId) (s : State) :
    byteOf (portOf (heard p s) q).silence = if q = p then 0 else byteOf (portOf s q).silence := by
  rw [portOf_heard]
  by_cases e : p = q
  · simp [e, byteOf]
  · rw [if_neg e, if_neg (Ne.symm e)]

/-- Settles O6: the port that asks reads itself ACTIVE. -/
theorem statusAnswers : Obligations.StatusAnswers := by
  intro p s decoding
  have bit := getLsbD_flagByte (allPorts.map (portActive (heard p s))) (by simp [allPorts])
  refine ⟨portStatesByte (heard p s),
    exec_answers (body := fun t => accepted (statusBytes t p) t) rfl decoding ?_, fun q => ?_, fun j above => ?_⟩
  · simp only [accepted, statusBytes, silence_heard]
    rfl
  · refine (bit q.val).trans ?_
    rw [← portActive_heard]
    simp [allPorts, List.getD_eq_getElem?_getD]
  · refine (bit j).trans ?_
    rw [List.getD_eq_getElem?_getD, List.getElem?_eq_none (by simpa [allPorts] using above)]
    rfl

/-! ## SOURCE-READ -/

theorem boolByte_eq (b : Bool) : boolByte b = if b then 1 else 0 := rfl

theorem boolByte_paid (c : SourceClass) : boolByte (c == .paid) = if c = .paid then 1 else 0 := by
  cases c <;> rfl

/-- Settles O8, by whether the slot byte names a slot. -/
theorem sourceReadAnswers : Obligations.SourceReadAnswers := by
  intro p slot s decoding
  refine ⟨fun beyond => exec_refused (body := sourceReadAnswer slot) rfl decoding ?_,
    fun k named => exec_answers (body := sourceReadAnswer slot) rfl decoding ?_⟩
  · rw [sourceReadAnswer, (slotOf_none slot).mpr beyond]
  · rw [sourceReadAnswer, (slotOf_eq slot k).mpr named]
    simp only [accepted, sourceReadBytes, sourceRecordBytes, grantRecordBytes, boolByte_paid,
      List.append_assoc]
    rfl

/-! ## MODEL-READ -/

/-- One block of a list made of blocks of one length. -/
theorem take_drop_flatMap {α β : Type} (f : α → List β) (m : Nat) (blocks : ∀ a, (f a).length = m)
    (l : List α) (rest : List β) (i : Nat) (h : i < l.length) :
    ((l.flatMap f ++ rest).drop (m * i)).take m = f l[i] := by
  induction l generalizing i with
  | nil => exact absurd h (Nat.not_lt_zero i)
  | cons a l ih =>
    rw [List.flatMap_cons, List.append_assoc]
    cases i with
    | zero => simp [← blocks a]
    | succ i =>
      have past : m * (i + 1) = (f a).length + m * i := by rw [blocks, Nat.mul_succ, Nat.add_comm]
      rw [past, ← List.drop_drop, List.drop_left' rfl]
      exact ih i (by simpa using h)

theorem length_flatMap {α β : Type} (f : α → List β) (m : Nat) (blocks : ∀ a, (f a).length = m)
    (l : List α) : (l.flatMap f).length = m * l.length := by
  induction l with
  | nil => rfl
  | cons a l ih => rw [List.flatMap_cons, List.length_append, blocks, ih, List.length_cons,
      Nat.mul_succ, Nat.add_comm]

/-- The bytes of the layers, of the probes and of the rest of MODEL-READ. -/
theorem modelReadBytes_eq (s : State) : modelReadBytes s =
    (List.finRange 12).flatMap (fun i => tempBytes s.model.layers[i]) ++
      ((List.finRange 8).flatMap (fun n => probeBytes s.scanner.probes[n]) ++
        ([modelStateCode s.model.state, boolByte s.model.inversion] ++ livePart s ++
          publishedPart s.planner.published ++ protectionPart s)) := by
  simp only [modelReadBytes, modelPart, allLayers, List.append_assoc]

theorem storedEnergy_eq (img : Image) (layers : Vector Int 12) : storedEnergy img layers =
    min 65535 ((List.finRange 12).map fun i =>
      (imageByte img i.val).toNat * (layers[i] - tCold img).toNat * 1163 / 16000).sum := by
  rw [storedEnergy, saturatingSum, saturate, Nat.min_comm]
  simp [allLayers, energyAbove, layerVolumes, imageU8]

theorem comfortEnergy_eq (img : Image) (layers : Vector Int 12) : comfortEnergy img layers =
    min 65535 (((List.finRange 12).filter fun i => (imageByte img 0x030).toNat ≤ i.val).map fun i =>
      (imageByte img i.val).toNat * (layers[i] - tUse img).toNat * 1163 / 16000).sum := by
  rw [comfortEnergy, saturatingSum, saturate, Nat.min_comm]
  simp only [comfortLayers, comfortFloor, allLayers, energyAbove, layerVolumes, imageU8,
    Fin.getElem_fin, Vector.getElem_ofFn]
  rfl

theorem flagByte_two (a b : Bool) : flagByte [a, b] = byteOf (a.toNat + 2 * b.toNat) := by
  simp [flagByte]

theorem flagByte_three (a b c : Bool) :
    flagByte [a, b, c] = byteOf (a.toNat + 2 * b.toNat + 4 * c.toNat) := by
  simp only [flagByte, List.foldr_cons, List.foldr_nil, Nat.mul_zero, Nat.add_zero]
  congr 1
  omega

theorem length_tempBytes (t : Int) : (tempBytes t).length = 2 := rfl

theorem length_probeBytes (x : ProbeSlot) : (probeBytes x).length = 4 := rfl

/-- Settles O7: 24 bytes of layers, 32 of probes, and the rest. -/
theorem modelReadAnswers : Obligations.ModelReadAnswers := by
  intro p s decoding
  have layers := length_flatMap (fun i : LayerId => tempBytes s.model.layers[i]) 2
    (fun _ => length_tempBytes _) (List.finRange 12)
  have probes := length_flatMap (fun n : ProbeId => probeBytes s.scanner.probes[n]) 4
    (fun _ => length_probeBytes _) (List.finRange 8)
  rw [List.length_finRange] at layers probes
  refine ⟨modelReadBytes s,
    exec_answers (body := fun t => accepted (modelReadBytes t) t) rfl decoding rfl, ?_,
    fun i => ?_, fun n => ?_, ?_⟩
  · rw [modelReadBytes_eq, List.length_append, List.length_append, layers, probes]
    rfl
  · rw [modelReadBytes_eq]
    refine (take_drop_flatMap (fun i : LayerId => tempBytes s.model.layers[i]) 2
      (fun _ => length_tempBytes _) (List.finRange 12) _ i.val (by simp)).trans ?_
    simp
  · rw [modelReadBytes_eq, ← List.drop_drop, List.drop_left' layers]
    refine (take_drop_flatMap (fun n : ProbeId => probeBytes s.scanner.probes[n]) 4
      (fun _ => length_probeBytes _) (List.finRange 8) _ n.val (by simp)).trans ?_
    simp [probeBytes]
  · rw [modelReadBytes_eq, ← List.append_assoc, List.drop_left' (by rw [List.length_append, layers, probes])]
    simp only [livePart, publishedPart, protectionPart, publishedFlagsByte, protectionFlagsByte,
      flagByte_two, flagByte_three, storedEnergy_eq, comfortEnergy_eq, boolByte_eq, List.append_assoc]

end Sys2Proof.Machine
end

section
/-! SUPPORT. The frame commands (R66, R68 to R73): their checks in order, and what each leaves in the
Request Pool. -/

namespace Sys2Proof.Machine

/-! ## The checks of R66 -/

section Named
variable {s : State} {p : PortId} {index : Byte} {i : FrameId}

theorem namedFrame_beyond (p : PortId) (s : State) (h : 48 ≤ index.toNat) :
    namedFrame s p index = .error .badArgument := by
  rw [namedFrame, (frameIndex_none index).mpr h]

theorem namedFrame_notOwned (named : index.toNat = i.val) (other : ownerOf s i ≠ some p) :
    namedFrame s p index = .error .notOwner := by
  rw [namedFrame, (frameIndex_eq index i).mpr named]
  simp [other]

theorem namedFrame_owned (named : index.toNat = i.val) (owner : ownerOf s i = some p) :
    namedFrame s p index = .ok i := by
  rw [namedFrame, (frameIndex_eq index i).mpr named]
  simp [owner]

theorem frameInState_of {st : FrameState} (name : namedFrame s p index = .ok i) :
    frameInState s p index st = if (frameOf s i).state = st then .ok i else .error .wrongState := by
  rw [frameInState, name]

/-- R66: the answer of a frame command whose first two checks fail. -/
theorem answer_of_unnamed {offset : Byte} {data : List Byte} {c : Instr} {status : Status}
    (mem : c ∈ [Instr.fill p index offset data, .frameRead p index, .post p index,
      .giveBack p index, .release p index]) (unnamed : namedFrame s p index = .error status) :
    ∃ body, partnerAnswer c = some (p, body) ∧ body s = refused status s := by
  simp only [List.mem_cons, List.not_mem_nil, or_false] at mem
  rcases mem with rfl | rfl | rfl | rfl | rfl
  · exact ⟨_, rfl, by simp only [fillAnswer, fillTarget, unnamed]⟩
  · exact ⟨_, rfl, by simp only [frameReadAnswer, readableFrame, unnamed]⟩
  · exact ⟨_, rfl, by simp only [postAnswer, frameInState, unnamed]⟩
  · exact ⟨_, rfl, by simp only [giveBackAnswer, frameInState, unnamed]⟩
  · exact ⟨_, rfl, by simp only [releaseAnswer, frameInState, unnamed]⟩

theorem fillFits_iff (offset : Byte) (data : List Byte) :
    fillFits offset.toNat data.length = true ↔
      offset.toNat ≤ 11 ∧ 1 ≤ data.length ∧ offset.toNat + data.length ≤ 12 := by
  simp only [fillFits, Bool.and_eq_true, decide_eq_true_eq]
  omega

end Named

/-- Settles O9, in the order of the checks. -/
theorem frameCommandsCheckInOrder : Obligations.FrameCommandsCheckInOrder := by
  intro p index offset data s decoding
  refine ⟨fun c mem => ⟨fun beyond => ?_, fun i named other => ?_⟩, fun i named owner => ?_⟩
  · obtain ⟨body, partner, answer⟩ :=
      answer_of_unnamed mem (namedFrame_beyond (index := index) p (heard p s) beyond)
    exact exec_refused partner decoding answer
  · obtain ⟨body, partner, answer⟩ :=
      answer_of_unnamed mem (namedFrame_notOwned (s := heard p s) named other)
    exact exec_refused partner decoding answer
  · have name : namedFrame (heard p s) p index = .ok i := namedFrame_owned named owner
    have inState (st : FrameState) (differs : (frameOf s i).state ≠ st) :
        frameInState (heard p s) p index st = .error .wrongState :=
      (frameInState_of name).trans (if_neg differs)
    refine ⟨fun unfit => ?_, fun fits used => ?_, fun free => ?_, fun used => ⟨?_, ?_⟩, fun used => ?_⟩
    · have unfits : fillFits offset.toNat data.length = false := by
        rw [← Bool.not_eq_true, fillFits_iff]
        exact unfit
      exact exec_refused (body := fillAnswer p index offset data) rfl decoding
        (by simp [fillAnswer, fillTarget, name, unfits])
    · have here : (frameOf (heard p s) i).state ≠ .taken := used
      exact exec_refused (body := fillAnswer p index offset data) rfl decoding
        (by simp [fillAnswer, fillTarget, name, (fillFits_iff offset data).mpr fits, here])
    · have here : (frameOf (heard p s) i).state = .free := free
      exact exec_refused (body := frameReadAnswer p index) rfl decoding
        (by simp [frameReadAnswer, readableFrame, name, here])
    · exact exec_refused (body := postAnswer p index) rfl decoding
        (by simp only [postAnswer, inState .taken used])
    · exact exec_refused (body := giveBackAnswer p index) rfl decoding
        (by simp only [giveBackAnswer, inState .taken used])
    · exact exec_refused (body := releaseAnswer p index) rfl decoding
        (by simp only [releaseAnswer, inState .collected used])

/-! ## FILL -/

/-- The two bytes that form a word. -/
theorem extract_wordOf (low high : Byte) :
    (wordOf low high).extractLsb' 0 8 = low ∧ (wordOf low high).extractLsb' 8 8 = high := by
  have bits (i : Nat) : (wordOf low high).getLsbD i =
      if i < 8 then low.getLsbD i else high.getLsbD (i - 8) := BitVec.getLsbD_append
  constructor <;> ext i hi <;> rw [BitVec.getElem_extractLsb', bits]
  · rw [if_pos (by omega), Nat.zero_add, BitVec.getLsbD_eq_getElem hi]
  · rw [if_neg (by omega), Nat.add_sub_cancel_left, BitVec.getLsbD_eq_getElem hi]

theorem wordBytes_wordOf (low high : Byte) : wordBytes (wordOf low high) = [low, high] := by
  rw [wordBytes, (extract_wordOf low high).1, (extract_wordOf low high).2]

theorem wordBytes_withLow (w : Word) (b : Byte) :
    wordBytes (withLow w b) = [b, w.extractLsb' 8 8] := wordBytes_wordOf _ _

theorem wordBytes_withHigh (w : Word) (b : Byte) :
    wordBytes (withHigh w b) = [w.extractLsb' 0 8, b] := wordBytes_wordOf _ _

/-- R68, R182: a byte written below the pad byte. -/
theorem requestBytes_writeRequestByte (r : Request) (offset : Nat) (b : Byte) :
    requestBytes (writeRequestByte r offset b) =
      if offset < 11 then (requestBytes r).set offset b else requestBytes r := by
  unfold writeRequestByte requestBytes
  split <;> simp only [wordBytes_withLow, wordBytes_withHigh, List.cons_append, List.nil_append]
  case h_12 =>
    simp only [imp_false] at *
    rw [if_neg (show ¬offset < 11 by omega)]
  all_goals rfl

/-- R68, R182: the request bytes after a write. -/
theorem requestBytes_writeRequest (data : List Byte) (r : Request) (offset j : Nat) (h : j < 11) :
    (requestBytes (writeRequest r offset data)).getD j 0 =
      if offset ≤ j ∧ j < offset + data.length then data.getD (j - offset) 0
      else (requestBytes r).getD j 0 := by
  induction data generalizing r offset with
  | nil => rw [writeRequest, if_neg (by simp)]
  | cons b rest ih =>
    have length : (requestBytes r).length = 12 := rfl
    rw [writeRequest, ih, requestBytes_writeRequestByte, List.length_cons]
    by_cases here : offset = j
    · subst here
      have after : ¬(offset + 1 ≤ offset ∧ offset < offset + 1 + rest.length) := by omega
      have within : offset ≤ offset ∧ offset < offset + (rest.length + 1) := by omega
      rw [if_neg after, if_pos h, if_pos within]
      simp [List.getD_eq_getElem?_getD, length, show offset < 12 by omega]
    · by_cases later : offset + 1 ≤ j ∧ j < offset + 1 + rest.length
      · have within : offset ≤ j ∧ j < offset + (rest.length + 1) := by omega
        rw [if_pos later, if_pos within, show j - offset = j - (offset + 1) + 1 by omega]
        rfl
      · have outside : ¬(offset ≤ j ∧ j < offset + (rest.length + 1)) := by omega
        rw [if_neg later, if_neg outside]
        split
        · simp [List.getD_eq_getElem?_getD, here]
        · rfl

/-- R182: the pad byte reads 0. -/
theorem requestBytes_pad (r : Request) : (requestBytes r).getD 11 0 = 0 := rfl

theorem modFrame_eq (s : State) (i : FrameId) (f : Frame → Frame) : modFrame s i f =
    s.setPool { s.pool with frames := s.pool.frames.set i (f (frameOf s i)) } := by
  simp [modFrame, modifyAt, frameOf]

/-- Settles O11: a byte at a time. -/
theorem fillWritesRequestBytes : Obligations.FillWritesRequestBytes := by
  intro p index offset data i s decoding named owner state fits count range
  have name : namedFrame (heard p s) p index = .ok i := namedFrame_owned named owner
  have here : (frameOf (heard p s) i).state = .taken := state
  have target : fillTarget (heard p s) p index offset data = .ok i := by
    simp [fillTarget, name, here, (fillFits_iff offset data).mpr ⟨fits, count, range⟩]
  refine ⟨writeRequest (frameOf s i).request offset.toNat data,
    exec_pool (body := fillAnswer p index offset data) rfl decoding ?_, fun j below => ?_⟩
  · rw [fillAnswer, target]
    simp only [accepted]
    rw [modFrame_eq]
    rfl
  · by_cases pad : j = 11
    · rw [if_pos pad, pad, requestBytes_pad]
    · rw [if_neg pad, requestBytes_writeRequest data _ _ j (by omega)]

/-! ## The commands that move a frame -/

/-- Settles O12. -/
theorem frameReadAnswers : Obligations.FrameReadAnswers := by
  intro p index i s decoding named owner used
  have name : namedFrame (heard p s) p index = .ok i := namedFrame_owned named owner
  have here : (frameOf (heard p s) i).state ≠ .free := used
  refine exec_answers (body := frameReadAnswer p index) rfl decoding ?_
  simp only [frameReadAnswer, readableFrame, name, if_neg here]
  simp only [accepted, frameBytes, requestBytes, resultBytes, List.append_assoc]
  rfl

/-- Settles O13. -/
theorem postAnswers : Obligations.PostAnswers := by
  intro p index i s decoding named owner state
  have name : namedFrame (heard p s) p index = .ok i := namedFrame_owned named owner
  have target : frameInState (heard p s) p index .taken = .ok i :=
    (frameInState_of name).trans (if_pos state)
  refine exec_pool (body := postAnswer p index) rfl decoding ?_
  rw [postAnswer, target]
  simp only [accepted]
  rw [modFrame_eq]
  rfl

theorem freed_eq (s : State) (p : PortId) (i : FrameId) : freed s p i = s.setPool { s.pool with
    frames := s.pool.frames.set i { frameOf s i with state := .free }
    freeLists := s.pool.freeLists.set p (freeList s p ++ [i]) } := by
  unfold freed setFrameState
  rw [modFrame_eq]
  rfl

/-- Settles O14: both commands free the frame. -/
theorem giveBackAndReleaseFreeFrames : Obligations.GiveBackAndReleaseFreeFrames := by
  intro p index i s decoding named owner c frees
  have name : namedFrame (heard p s) p index = .ok i := namedFrame_owned named owner
  have answer {st : FrameState} (state : (frameOf s i).state = st) :
      frameInState (heard p s) p index st = .ok i := (frameInState_of name).trans (if_pos state)
  rcases frees with ⟨rfl, state⟩ | ⟨rfl, state⟩
  · refine exec_pool (body := giveBackAnswer p index) rfl decoding ?_
    rw [giveBackAnswer, answer state]
    simp only [accepted]
    rw [freed_eq]
    rfl
  · refine exec_pool (body := releaseAnswer p index) rfl decoding ?_
    rw [releaseAnswer, answer state]
    simp only [accepted]
    rw [freed_eq]
    rfl

/-- Settles O15, by whether the reply queue is empty. -/
theorem replyTakeAnswers : Obligations.ReplyTakeAnswers := by
  intro p s decoding
  refine ⟨fun empty => ?_, fun i rest head => ?_⟩
  · have empty : replyQueue (heard p s) p = [] := empty
    exact exec_answers (body := replyTakeAnswer p) rfl decoding
      (by simp only [replyTakeAnswer, empty, noItem])
  · have head : replyQueue (heard p s) p = i :: rest := head
    refine exec_pool (body := replyTakeAnswer p) rfl decoding ?_
    rw [replyTakeAnswer, head]
    simp only [accepted, setFrameState]
    rw [modFrame_eq]
    rfl

end Sys2Proof.Machine
end

section
/-! SUPPORT. The intake held off (R74), one rotation of the turn ranks (R56), the state after a power-on
reset, and the resets with the causes that they record (R179, R180). -/

namespace Sys2Proof.Machine

/-- Settles O16, by the guard of the intake. -/
theorem intakeHeldOff_takesNothing : Obligations.IntakeHeldOff := by
  intro p s off
  have guard : (isRunning s && !intakeHeldOff s && !(postList s p).isEmpty) = false := by
    rcases off with setup | plan | empty
    · simp [intakeHeldOff, setup]
    · simp [intakeHeldOff, plan]
    · simp [empty]
  simp only [exec, execIntakeTake, guard, Bool.false_eq_true, if_false]

/-- Settles O37, by the grant record that one rotation leaves. -/
theorem rotationMovesLowerRanks : Obligations.RotationMovesLowerRanks := by
  intro s winner k
  refine ⟨?_, rfl, rfl⟩
  rw [grantOf_rotateRanks]
  split
  · rfl
  · split <;> rfl

/-- Settles O54: every block is fresh. -/
theorem invariantsHoldAtReset : Obligations.InvariantsHoldAtReset := by
  obtain ⟨-, formed, ranks, matched⟩ := GrantsKept.of_fresh (listed := True) (s := State.reset)
    (t := State.reset) (img := factoryImage) rfl rfl
  have rest : AtRest State.reset := fun k => by
    rw [grantOf_fresh (img := factoryImage) rfl k]
    exact freshGrant_not_running _ k
  have listed : FramesListed State.reset :=
    (framesListed_iff _).mpr ⟨(sharesCopied_outside rfl).mpr rfl,
      ListedBut.of_freshPool (img := factoryImage) rfl⟩
  have inOrder : PlannerInOrder State.reset :=
    ⟨⟨fun state => (nomatch state), fun inside => (nomatch inside)⟩, fun _ => rfl,
      fun _ state => (nomatch state), rfl, fun _ => ⟨rfl, rfl, rfl⟩⟩
  exact ⟨rest.sourcesProtected, ranks, formed, listed, inOrder, factory_levelKindsFollow rfl rfl,
    freshAlerts_alertSetsFormed imageInRange_factoryImage rfl,
    ⟨imageInRange_factoryImage, fun _ none => nomatch none⟩, matched⟩

/-! ## The resets -/

theorem restartArmedAt_noRestart (s : State) (none : s.part.restartArmed = noRestart) (p : PortId) :
    restartArmedAt s p = false := by
  simp [restartArmedAt, none, noRestart]

theorem exec_restartReset_armed {s : State} {p : PortId} (armed : restartArmedAt s p = true) :
    exec .restartReset s = .next
      (resetBlocks (resetPart { s.part.cause with restart := true } false false) s) := by
  have some : allPorts.any (restartArmedAt s) = true :=
    List.any_eq_true.mpr ⟨p, mem_allPorts p, armed⟩
  simp only [exec, execRestartReset, some, if_true]

theorem exec_restartReset_none {s : State} (none : ∀ p, restartArmedAt s p = false) :
    exec .restartReset s = .next s := by
  have never : allPorts.any (restartArmedAt s) = false :=
    List.any_eq_false.mpr fun p _ => by simp [none p]
  simp only [exec, execRestartReset, never, Bool.false_eq_true, if_false]

theorem modWire_const (s : State) (p : PortId) (w : Wire) :
    modWire s p (fun _ => w) = { s with wires := s.wires.set p w } := rfl

/-- R154, R180: what the rise of a select leaves. -/
theorem selectRises_low {s : State} {p : PortId} (low : (wireOf s p).select = .low) :
    selectRises p s = { s with wires := s.wires.set p idleWire
                               pending := s.pending ++ (riseEvent s p).toList } := by
  unfold selectRises
  rw [low]
  cases riseEvent s p with
  | none => simp [modWire_const]
  | some c => rfl

/-- R156: what a port's accepted answer leaves, beside one change of the part. -/
theorem answered_heard_setPart (p : PortId) (r : Response) (s : State) (x : Part) :
    answered p (r, (heard p s).setPart x) = (s.setPorts (replied s p r)).setPart x := by
  rw [← answered_heard]
  rfl

/-- R180: an accepted RESTART. -/
theorem restart_accepted {s : State} {p : PortId} {setup : Setup} (decoded : decodes s p = true)
    (inside : s.store.setup = some setup) (holder : setup.holder = p) :
    exec (.restart p) s = .next ((s.setPorts (replied s p ⟨.ok, []⟩)).setPart
      { s.part with restartArmed := s.part.restartArmed.set p true }) := by
  rw [exec_served (body := restartAnswer p) rfl decoded, restartAnswer, heard_store, inside]
  simp only [holder, ne_eq, not_true_eq_false, if_false]
  exact congrArg Host.Outcome.next (answered_heard_setPart p _ s _)

theorem restartArmedAt_armed {s t : State} {p : PortId}
    (armed : t.part.restartArmed = s.part.restartArmed.set p true) (q : PortId) :
    restartArmedAt t q = if p = q then true else restartArmedAt s q := by
  unfold restartArmedAt
  rw [armed]
  by_cases same : p = q
  · subst same
    simp
  · have differs : p.val ≠ q.val := fun e => same (Fin.ext e)
    simp [same, differs]

theorem riseEvent_armed {s : State} {p : PortId} (armed : restartArmedAt s p = true) :
    riseEvent s p = some .restartReset := by
  rw [riseEvent, if_pos armed]

theorem riseEvent_cut {s : State} {p : PortId} (calm : restartArmedAt s p = false)
    (decoded : decodes s p = true)
    (cut : decodeTransaction p (wireOf s p).received = .incomplete) :
    riseEvent s p = some (.transactionDiscarded p) := by
  simp only [riseEvent, calm, decoded, cut, Bool.false_eq_true, if_false, if_true]

theorem riseEvent_whole {s : State} {p : PortId} (calm : restartArmedAt s p = false)
    (whole : ¬(decodes s p = true ∧ decodeTransaction p (wireOf s p).received = .incomplete)) :
    riseEvent s p = none := by
  rw [riseEvent, calm, if_neg Bool.false_ne_true]
  split
  case isTrue decoded =>
    cases read : decodeTransaction p (wireOf s p).received with
    | incomplete => exact absurd ⟨decoded, read⟩ whole
    | complete _ _ => rfl
    | empty => rfl
  case isFalse => rfl

/-- Settles O51, kind of reset by kind, and by the event that a rise of select brings about. -/
theorem resetsRecordCause : Obligations.ResetsRecordCause := by
  intro s
  have pin (free : s.part.rstnHeld = false) : exec .resetPinReset s = .next (resetBlocks
      (resetPart { s.part.cause with resetPin := true } true s.part.supplyHeld) s) := by
    simp only [exec, execResetPinReset, free, Bool.false_eq_true, if_false]
  have low (free : s.part.rstnHeld = false) (supplied : s.part.supplyHeld = false) :
      exec .supplyLowReset s = .next (resetBlocks
        (resetPart { s.part.cause with supplyLow := true } false true) s) := by
    simp only [exec, execSupplyLowReset, free, supplied, Bool.or_self, Bool.false_eq_true, if_false]
  refine ⟨⟨_, rfl, rfl, rfl⟩, fun free => ⟨_, pin free, rfl⟩,
    fun free supplied => ⟨_, low free supplied, rfl⟩,
    fun p armed => ⟨_, exec_restartReset_armed armed, rfl, rfl, restartArmedAt_noRestart _ rfl⟩,
    exec_restartReset_none, rfl, rfl, fun p low => ⟨fun armed => ?_, fun calm cut => ?_,
      fun calm whole => ?_⟩, fun p decoded => ⟨fun outside => ?_, fun setup inside =>
      ⟨fun other => ?_, fun holder => ⟨_, restart_accepted decoded inside holder, rfl, ?_,
        fun q differs => ?_⟩⟩⟩⟩
  · rw [selectRises_low low, riseEvent_armed armed]
    rfl
  · rw [selectRises_low low, riseEvent_cut calm cut.1 cut.2]
    rfl
  · rw [selectRises_low low, riseEvent_whole calm whole]
    rfl
  · exact exec_refused (body := restartAnswer p) rfl decoded
      (by rw [restartAnswer, heard_store, outside])
  · exact exec_refused (body := restartAnswer p) rfl decoded
      (by rw [restartAnswer, heard_store, inside]; exact if_pos other)
  · rw [restartArmedAt_armed rfl, if_pos rfl]
  · rw [restartArmedAt_armed rfl, if_neg (Ne.symm differs)]

end Sys2Proof.Machine
end

section
/-! SUPPORT. The transactions and the pins (R152 to R155, R183, R187): the bytes of a command decode to
it, each byte received brings its command about once, and what the output pins drive. -/

namespace Sys2Proof.Machine

/-! ## Decoding -/

theorem countByte_toNat {data : List Byte} (fits : countFits data = true) :
    (countByte data).toNat = data.length := by
  have short : data.length ≤ 255 := by simpa [countFits] using fits
  simp only [countByte, BitVec.toNat_ofNat]
  omega

/-- R153: a count byte and its data. -/
theorem countedData_whole {data : List Byte} (fits : countFits data = true) (f : List Byte → Instr)
    (rest : List Byte) :
    countedData f (countByte data :: (data ++ rest)) = .complete (f data) rest := by
  rw [countedData, countByte_toNat fits]
  simp

/-- R153: data that is not there in full. -/
theorem countedData_cut {data : List Byte} (fits : countFits data = true) (f : List Byte → Instr)
    {n : Nat} (cut : n < data.length + 1) :
    countedData f ((countByte data :: data).take n) = .incomplete := by
  cases n with
  | zero => rfl
  | succ m =>
    rw [List.take_succ_cons, countedData, countByte_toNat fits, if_pos]
    rw [List.length_take]
    omega

/-- R153, R183: the bytes of a command, whole and cut before the last of them. -/
def DecodesBack (c : Instr) (p : PortId) (bytes : List Byte) : Prop :=
  (∀ rest, decodeTransaction p (bytes ++ rest) = .complete c rest) ∧
    ∀ n, 0 < n → n < bytes.length → decodeTransaction p (bytes.take n) = .incomplete

theorem DecodesBack.single {c : Instr} {p : PortId} {code : Byte}
    (whole : ∀ rest, decodeCommand p code rest = .complete c rest) : DecodesBack c p [code] :=
  ⟨whole, fun n some cut => by
    rw [List.length_singleton] at cut
    omega⟩

/-- A command byte and the argument bytes, whose reading does not depend on the command byte. -/
theorem DecodesBack.arguments {c : Instr} {p : PortId} {code : Byte} {args : List Byte}
    (read : List Byte → Transaction) (command : decodeCommand p code = read)
    (whole : ∀ rest, read (args ++ rest) = .complete c rest)
    (cut : ∀ n, n < args.length → read (args.take n) = .incomplete) :
    DecodesBack c p (code :: args) := by
  refine ⟨fun rest => (congrFun command _).trans (whole rest), fun n some less => ?_⟩
  obtain ⟨m, rfl⟩ := Nat.exists_eq_succ_of_ne_zero (Nat.ne_of_gt some)
  rw [List.take_succ_cons, decodeTransaction, command]
  exact cut m (Nat.lt_of_succ_lt_succ less)

theorem DecodesBack.oneArgument {p : PortId} {code a : Byte} {f : Byte → Instr}
    (command : decodeCommand p code = Sys2Proof.oneArgument f) :
    DecodesBack (f a) p [code, a] :=
  .arguments _ command (fun _ => rfl) fun n less => by
    obtain rfl : n = 0 := by
      rw [List.length_singleton] at less
      omega
    rfl

theorem DecodesBack.counted {p : PortId} {code : Byte} {data : List Byte} {f : List Byte → Instr}
    (fits : countFits data = true) (command : decodeCommand p code = countedData f) :
    DecodesBack (f data) p (code :: countByte data :: data) :=
  .arguments _ command (fun _ => countedData_whole fits f _) fun _ less => countedData_cut fits f less

theorem fillArguments_cut {p : PortId} {index offset : Byte} {data : List Byte}
    (fits : countFits data = true) {n : Nat}
    (cut : n < (index :: offset :: countByte data :: data).length) :
    fillArguments p ((index :: offset :: countByte data :: data).take n) = .incomplete := by
  match n with
  | 0 => rfl
  | 1 => rfl
  | m + 2 => exact countedData_cut fits _ (by simpa using cut)

theorem selectArguments_cut {p : PortId} {low high : Byte} {n : Nat} (cut : n < [low, high].length) :
    selectArguments p ([low, high].take n) = .incomplete := by
  match n with
  | 0 => rfl
  | 1 => rfl
  | m + 2 => exact absurd cut (by simp)

/-- R167: the selector of SELECT, low byte first. -/
theorem selector_bytes (index : Word) :
    index.extractLsb' 8 8 ++ index.extractLsb' 0 8 = index := by
  ext i less
  simp only [BitVec.getElem_append, BitVec.getElem_extractLsb']
  split
  · simp [BitVec.getLsbD_eq_getElem less]
  · rw [← BitVec.getLsbD_eq_getElem less]
    congr 1
    omega

/-- R153: a byte that names no command. -/
theorem decodeCommand_bad {p : PortId} {code : Byte} (bad : commandCodes.contains code = false)
    (rest : List Byte) : decodeCommand p code rest = .complete (.badCommand p code) rest := by
  simp only [commandCodes, List.contains_cons, List.contains_nil, Bool.or_false,
    Bool.or_eq_false_iff, beq_eq_false_iff_ne, ne_eq] at bad
  simp only [decodeCommand, bad, if_false, noArguments]

/-- R183: every command that a partner can send decodes back from its bytes. -/
theorem decodesBack {c : Instr} {p : PortId} {bytes : List Byte} (formed : c.wellFormed = true)
    (sent : transactionBytes c = some (p, bytes)) : DecodesBack c p bytes := by
  cases c <;> cases sent
  case fill index offset data =>
    exact .arguments (fillArguments p) rfl (fun _ => countedData_whole formed _ _)
      fun _ less => fillArguments_cut formed less
  case setWrite data => exact .counted formed rfl
  case select index =>
    refine .arguments (selectArguments p) rfl (fun rest => ?_) fun _ less => selectArguments_cut less
    exact congrArg (fun word => Transaction.complete (.select p word) rest) (selector_bytes index)
  case badCommand code =>
    exact .single (decodeCommand_bad (by simpa [Instr.wellFormed] using formed))
  case frameRead => exact .oneArgument rfl
  case post => exact .oneArgument rfl
  case giveBack => exact .oneArgument rfl
  case release => exact .oneArgument rfl
  case alertDone => exact .oneArgument rfl
  case setRead => exact .oneArgument rfl
  case sourceRead => exact .oneArgument rfl
  all_goals exact .single fun _ => rfl

/-! ## The serial lines -/

theorem wireOf_modWire (s : State) (p : PortId) (f : Wire → Wire) :
    wireOf (modWire s p f) p = f (wireOf s p) := by
  simp [wireOf, modWire]

theorem modWire_modWire (s : State) (p : PortId) (f g : Wire → Wire) :
    modWire (modWire s p f) p g = modWire s p fun w => g (f w) := by
  simp [modWire, State.setWires, modifyAt]

theorem modWire_standing {s : State} {p : PortId} {f : Wire → Wire} (h : f (wireOf s p) = wireOf s p) :
    modWire s p f = s := by
  have wires : modifyAt s.wires p f = s.wires := by
    unfold modifyAt
    exact (congrArg (s.wires.set p.val) h).trans (by simp [wireOf])
  rw [modWire, wires]
  rfl

theorem modWire_congr {s : State} {p : PortId} {f g : Wire → Wire} (h : f (wireOf s p) = g (wireOf s p)) :
    modWire s p f = modWire s p g := by
  simp only [modWire, modifyAt]
  exact congrArg (fun w => s.setWires (s.wires.set p.val w)) h

theorem decodes_modWire {s : State} {p : PortId} {f : Wire → Wire}
    (h : (f (wireOf s p)).disregarded = (wireOf s p).disregarded) :
    decodes (modWire s p f) p = decodes s p := by
  rw [decodes, wireOf_modWire, h]
  rfl

theorem byteReceived_disregarded {s : State} {p : PortId} (b : Byte) (h : decodes s p = false) :
    byteReceived p b s = s := by
  rw [byteReceived, h, if_neg Bool.false_ne_true]

/-- No byte has yet brought a command about. -/
def Unfinished (p : PortId) (received : List Byte) : Prop :=
  ∀ c rest, decodeTransaction p received ≠ .complete c rest

theorem byteReceived_open {s : State} {p : PortId} {b : Byte} (decoding : decodes s p = true)
    (before : Unfinished p (wireOf s p).received) : byteReceived p b s =
      match decodeTransaction p ((wireOf s p).received ++ [b]) with
      | .complete c _ => queued c (modWire s p fun w =>
          { w with received := (wireOf s p).received ++ [b] })
      | .empty | .incomplete => modWire s p fun w =>
          { w with received := (wireOf s p).received ++ [b] } := by
  rw [byteReceived, decoding, if_pos rfl]
  cases read : decodeTransaction p (wireOf s p).received with
  | complete c rest => exact absurd read (before c rest)
  | empty => rfl
  | incomplete => rfl

/-- R152, R153: the bytes after those received, up to the last of a command, bring it about. -/
theorem byteReceived_command {c : Instr} {p : PortId} (later : List Byte) {s : State}
    (some : later ≠ []) (decoding : decodes s p = true)
    (cut : ∀ n, n < ((wireOf s p).received ++ later).length →
      Unfinished p (((wireOf s p).received ++ later).take n))
    (whole : decodeTransaction p ((wireOf s p).received ++ later) = .complete c []) :
    (later.foldl (fun u b => byteReceived p b u) s).pending = s.pending ++ [c] := by
  induction later generalizing s with
  | nil => exact absurd rfl some
  | cons b later ih =>
    have before : Unfinished p (wireOf s p).received := by
      have := cut (wireOf s p).received.length (by simp)
      rwa [List.take_left] at this
    rw [List.foldl_cons, byteReceived_open decoding before]
    by_cases last : later = []
    · subst last
      rw [whole]
      rfl
    · have more : 0 < later.length := List.length_pos_iff.mpr last
      have now : Unfinished p ((wireOf s p).received ++ [b]) := by
        have := cut ((wireOf s p).received ++ [b]).length (by simpa using more)
        rwa [List.append_cons _ b later, List.take_left] at this
      have step : (match decodeTransaction p ((wireOf s p).received ++ [b]) with
          | .complete c _ => queued c (modWire s p fun w =>
              { w with received := (wireOf s p).received ++ [b] })
          | .empty | .incomplete => modWire s p fun w =>
              { w with received := (wireOf s p).received ++ [b] }) =
          modWire s p fun w => { w with received := (wireOf s p).received ++ [b] } := by
        cases read : decodeTransaction p ((wireOf s p).received ++ [b]) with
        | complete c rest => exact absurd read (now c rest)
        | empty => rfl
        | incomplete => rfl
      rw [step]
      have received : (wireOf (modWire s p fun w =>
          { w with received := (wireOf s p).received ++ [b] }) p).received =
          (wireOf s p).received ++ [b] := by rw [wireOf_modWire]
      refine ih last ?_ ?_ ?_
      · rwa [decodes_modWire rfl]
      · rwa [received, ← List.append_cons]
      · rwa [received, ← List.append_cons]

/-- R152: the bits of a byte, the most significant first, make the byte. -/
theorem byteOfBits_bits (b : Byte) : byteOfBits [b.getLsbD 7, b.getLsbD 6, b.getLsbD 5, b.getLsbD 4,
    b.getLsbD 3, b.getLsbD 2, b.getLsbD 1, b.getLsbD 0] = b := by
  revert b
  decide +kernel

theorem wire_between_bytes {w : Wire} (none : w.bits = []) : { w with bits := [] } = w := by
  cases w
  cases none
  rfl

theorem clockRises_bit {s : State} {p : PortId} {dataIn : Bool} (low : (wireOf s p).select = .low)
    (short : (wireOf s p).bits.length < 7) :
    clockRises p dataIn s = modWire s p fun w => { w with bits := w.bits ++ [dataIn] } := by
  rw [clockRises, low]
  exact (if_pos (by simp; omega)).trans (modWire_congr rfl)

theorem clockRises_byte {s : State} {p : PortId} {dataIn : Bool} (low : (wireOf s p).select = .low)
    (full : (wireOf s p).bits.length = 7) :
    clockRises p dataIn s = byteReceived p (byteOfBits ((wireOf s p).bits ++ [dataIn]))
      (modWire s p fun w => { w with bits := [] }) := by
  rw [clockRises, low]
  exact if_neg (by simp; omega)

/-- The rises of the clock that do not fill a byte. -/
theorem clockRises_bits {p : PortId} (bits : List Bool) {s : State} (low : (wireOf s p).select = .low)
    (short : (wireOf s p).bits.length + bits.length ≤ 7) :
    bits.foldl (fun u b => clockRises p b u) s =
      modWire s p fun w => { w with bits := w.bits ++ bits } := by
  induction bits generalizing s with
  | nil => exact (modWire_standing (by simp)).symm
  | cons b bits ih =>
    rw [List.length_cons] at short
    rw [List.foldl_cons, clockRises_bit low (by omega), ih, modWire_modWire]
    · exact modWire_congr (by simp)
    · rwa [wireOf_modWire]
    · rw [wireOf_modWire]
      simp
      omega

/-- R152: eight rises of the clock receive a byte. -/
theorem clockRises_all {p : PortId} {s : State} (b : Byte) (low : (wireOf s p).select = .low)
    (none : (wireOf s p).bits = []) :
    [7, 6, 5, 4, 3, 2, 1, 0].foldl (fun u j => clockRises p (b.getLsbD j) u) s =
      byteReceived p b s := by
  have high := clockRises_bits [b.getLsbD 7, b.getLsbD 6, b.getLsbD 5, b.getLsbD 4, b.getLsbD 3,
    b.getLsbD 2, b.getLsbD 1] low (by simp [none])
  have full : (wireOf (modWire s p fun w => { w with bits := w.bits ++ [b.getLsbD 7, b.getLsbD 6,
      b.getLsbD 5, b.getLsbD 4, b.getLsbD 3, b.getLsbD 2, b.getLsbD 1] }) p).bits =
      [b.getLsbD 7, b.getLsbD 6, b.getLsbD 5, b.getLsbD 4, b.getLsbD 3, b.getLsbD 2,
        b.getLsbD 1] := by
    rw [wireOf_modWire, none, List.nil_append]
  simp only [List.foldl_cons, List.foldl_nil] at high ⊢
  rw [high, clockRises_byte (by rwa [wireOf_modWire]) (by rw [full]; rfl), full, modWire_modWire,
    modWire_standing (wire_between_bytes none)]
  exact congrArg (fun byte => byteReceived p byte s) (byteOfBits_bits b)

/-- Settles O3: the bytes of every command decode back to it, and are received bit by bit and byte by
byte. -/
theorem transactionBytesDecodeBack : Obligations.TransactionBytesDecodeBack := by
  refine ⟨fun c p bytes formed sent => decodesBack formed sent,
    fun p b s low none => clockRises_all b low none, fun c p bytes s formed sent decoding none => ?_⟩
  obtain ⟨whole, cut⟩ := decodesBack formed sent
  have all := whole []
  rw [List.append_nil] at all
  refine byteReceived_command bytes ?_ decoding ?_ ?_
  · rintro rfl
    cases all
  · rw [none, List.nil_append]
    intro n less d rest
    rcases Nat.eq_zero_or_pos n with rfl | some
    · exact fun read => nomatch read
    · rw [cut n some less]
      exact fun read => nomatch read
  · rw [none]
    exact all

end Sys2Proof.Machine
end

section
/-! SUPPORT. What a port does with the bytes it disregards, what it sends, and what the output pins
drive (R152 to R155, R187). -/

namespace Sys2Proof.Machine

/-! ## A disregarded transaction -/

theorem exec_disregarded {c : Instr} {p : PortId} {bytes : List Byte} {s : State}
    (sent : transactionBytes c = some (p, bytes)) (h : decodes s p = false) : exec c s = .next s := by
  obtain ⟨body, answer⟩ := partnerAnswer_of_transactionBytes sent
  rw [exec_partner s answer, serve_disregards p body s h]

theorem selectFalls_loading {s : State} {p : PortId} (loading : isRunning s = false)
    (high : (wireOf s p).select = .high) : (wireOf (selectFalls p s) p).disregarded = true := by
  have falls : selectFalls p s = modPort (modWire s p fun _ =>
      { idleWire with select := .low, disregarded := !isRunning s }) p
        fun port => { port with response := none } := by
    rw [selectFalls, high]
  have wire : wireOf (selectFalls p s) p =
      { idleWire with select := .low, disregarded := !isRunning s } := by
    rw [falls]
    exact wireOf_modWire s p _
  rw [wire, loading]
  rfl

theorem decodes_disregarded {s : State} {p : PortId} (h : (wireOf s p).disregarded = true) :
    decodes s p = false := by
  rw [decodes, h]
  simp

theorem clockRises_disregarded {s : State} {p : PortId} (h : (wireOf s p).disregarded = true)
    (bit : Bool) : (wireOf (clockRises p bit s) p).disregarded = true ∧
      (clockRises p bit s).pending = s.pending := by
  have kept (f : Wire → Wire) (same : (f (wireOf s p)).disregarded = (wireOf s p).disregarded) :
      (wireOf (modWire s p f) p).disregarded = true := by
    rw [wireOf_modWire, same, h]
  cases select : (wireOf s p).select with
  | high =>
    rw [clockRises, select]
    exact ⟨h, rfl⟩
  | low =>
    rw [clockRises, select]
    dsimp only
    split
    · exact ⟨kept _ rfl, rfl⟩
    · rw [byteReceived_disregarded _ (decodes_disregarded (kept _ rfl))]
      exact ⟨kept _ rfl, rfl⟩

/-! ## The bytes sent -/

theorem sendingByte_disregarded {s : State} {p : PortId} (h : decodes s p = false) (n : Nat) :
    sendingByte s p n = 0 := by
  rw [sendingByte, h, if_neg Bool.false_ne_true]

/-- R152: the bytes a port sends once its command has taken effect. -/
theorem sendingByte_answering {s : State} {p : PortId} {c : Instr} {r : Response}
    (decoding : decodes s p = true)
    (whole : decodeTransaction p (wireOf s p).received = .complete c [])
    (response : (portOf s p).response = some r) (n : Nat) :
    sendingByte s p n = sentByte (wireOf s p).received.length r n := by
  rw [sendingByte, if_pos decoding, whole, response]

theorem sentByte_before (received : Nat) (r : Response) {n : Nat} (h : n ≤ received) :
    sentByte received r n = 0 :=
  if_pos (by omega)

theorem sentByte_status (received : Nat) (r : Response) :
    sentByte received r (received + 1) = statusCode r.status := by
  simp [sentByte]

theorem sentByte_result (received : Nat) (r : Response) (j : Nat) :
    sentByte received r (received + 2 + j) = r.bytes.getD j 0 := by
  have index : received + 2 + j - (received + 1) = j + 1 := by omega
  rw [sentByte, if_neg (by omega), index, List.getD_cons_succ]

/-! ## The levels of the pins -/

theorem dataOutPin_released (s : State) (p : PortId) :
    dataOutPin s p = .released ↔ (wireOf s p).select = .high := by
  unfold dataOutPin
  cases (wireOf s p).select with
  | high => simp
  | low =>
    simp only [pushPull, reduceCtorEq, iff_false]
    split <;> simp

theorem dataOutPin_driven {s : State} {p : PortId} (low : (wireOf s p).select = .low) {n bit : Nat}
    (inByte : bit < 8) (falls : (wireOf s p).clockFalls = 8 * n + bit) :
    dataOutPin s p = .high ↔ (sendingByte s p n).getLsbD (7 - bit) = true := by
  have byte : (8 * n + bit) / 8 = n := by omega
  have place : (8 * n + bit) % 8 = bit := by omega
  rw [dataOutPin, low, falls]
  simp only [byte, place, pushPull]
  split <;> simp_all

theorem attentionLine_iff (s : State) (p : PortId) : attentionLine s p = true ↔
    isRunning s = true ∧ (replyQueue s p ≠ [] ∨ pendingOf s p ≠ []) := by
  simp [attentionLine]

theorem permitLine_iff (s : State) (k : SlotId) : permitLine s k = true ↔
    isRunning s = true ∧ (grantOf s k).state = .running := by
  simp [permitLine, isGrantRunning]

theorem probeClockPin_idle {s : State}
    (idle : ∀ scan, s.scanner.scan = some scan → scan.toRead = []) : probeClockPin s = some .low := by
  have none : currentRead s = none := by
    cases read : currentRead s with
    | none => rfl
    | some pair =>
      obtain ⟨inFlight, rest, toRead⟩ := currentRead_some read
      rw [idle _ inFlight] at toRead
      cases toRead
  rw [probeClockPin, probeLineIdle, none]
  rfl

/-- Settles O4: what is disregarded, what is sent, and the pins. -/
theorem commandsWithoutEffect : Obligations.CommandsWithoutEffect := by
  refine ⟨fun c p bytes s sent h => exec_disregarded sent h, fun p s => rfl,
    fun p code s decoding => exec_refused (body := refused .badCommand) rfl decoding rfl,
    fun p s => ⟨decodes_loading s p, selectFalls_loading,
      fun h => ⟨decodes_disregarded h, clockRises_disregarded h⟩, fun low => ?_,
      fun h => sendingByte_disregarded h⟩, fun p c r s decoding whole response => ?_,
    fun p s => ⟨dataOutPin_released s p, fun low n bit inByte falls =>
      dataOutPin_driven low inByte falls, attentionLine_iff s p, ?_,
      fun k => ⟨permitLine_iff s k, rfl⟩, probeClockPin_idle, rfl, rfl⟩⟩
  · rw [selectRises_low low]
    simp [wireOf]
  · have sends := sendingByte_answering decoding whole response
    refine ⟨fun n h => ?_, ?_, fun j => ?_⟩
    · rw [sends, sentByte_before _ _ h]
    · rw [sends, sentByte_status]
    · rw [sends, sentByte_result]
  · rw [attentionPin, pushPull]
    cases attentionLine s p <;> rfl

end Sys2Proof.Machine
end

section
/-! SUPPORT. The answers of ALERT-TAKE, ALERT-DONE, SELECT, SET-READ and STORE, and the completion of a store
(R144, R145, R167, R176, R177). -/

namespace Sys2Proof.Machine

/-! ## One block moved by a command -/

theorem answered_heard_setAlerts (p : PortId) (r : Response) (s : State) (x : AlertRouter) :
    answered p (r, (heard p s).setAlerts x) = (s.setPorts (replied s p r)).setAlerts x := by
  rw [← answered_heard]
  rfl

theorem answered_heard_setStore (p : PortId) (r : Response) (s : State) (x : SettingsStore) :
    answered p (r, (heard p s).setStore x) = (s.setPorts (replied s p r)).setStore x := by
  rw [← answered_heard]
  rfl

theorem answered_heard_setSelector (p : PortId) (r : Response) (s : State) (index : Nat) :
    answered p (r, setSelector p index (heard p s)) = s.setPorts (repliedAt s p index r) :=
  answered_setSelector p r index s (heard p s) rfl

/-- R145: a port's own liveness is no condition. -/
theorem condition_heard (p : PortId) (s : State) (k : AlertKind) :
    condition (heard p s) k = condition s k := condition_congr rfl rfl rfl rfl rfl rfl k

/-! ## ALERT-TAKE -/

theorem AlertKind.all_ascending : AlertKind.all.Pairwise fun j k => j.number < k.number := by decide

theorem lowestPending_none {s : State} {p : PortId} (empty : pendingOf s p = []) :
    lowestPending s p = none := by
  simp [lowestPending, empty]

theorem lowestPending_of_least {s : State} {p : PortId} {k : AlertKind} (pending : k ∈ pendingOf s p)
    (least : ∀ j, j ∈ pendingOf s p → k.number ≤ j.number) : lowestPending s p = some k := by
  cases found : lowestPending s p with
  | none =>
    have absent := List.find?_eq_none.mp found k (AlertKind.mem_all k)
    exact absurd (List.contains_iff_mem.mpr pending) absent
  | some j =>
    obtain ⟨-, before, after, split, skipped⟩ := List.find?_eq_some_iff_append.mp found
    have ascending := AlertKind.all_ascending
    have mem := AlertKind.mem_all k
    rw [split] at ascending mem
    rcases List.mem_append.mp mem with earlier | later
    · have skip := skipped k earlier
      rw [List.contains_iff_mem.mpr pending] at skip
      cases skip
    · rcases List.mem_cons.mp later with rfl | later
      · rfl
      · have below := (List.pairwise_cons.mp (List.pairwise_append.mp ascending).2.1).1 k later
        exact absurd (least j (lowestPending_mem found)) (Nat.not_le.mpr below)

theorem takeKind_other (s : State) {p q : PortId} (k : AlertKind) (differs : q ≠ p) :
    pendingOf (takeKind s p k) q = pendingOf s q ∧ awaitingOf (takeKind s p k) q = awaitingOf s q :=
  ⟨getElem_modifyAt_other _ p q _ differs.symm, getElem_modifyAt_other _ p q _ differs.symm⟩

theorem acknowledgeKind_other (s : State) {p q : PortId} (k : AlertKind) (differs : q ≠ p) :
    pendingOf (acknowledgeKind s p k) q = pendingOf s q ∧
      awaitingOf (acknowledgeKind s p k) q = awaitingOf s q :=
  ⟨getElem_modifyAt_other _ p q _ differs.symm, getElem_modifyAt_other _ p q _ differs.symm⟩

theorem modeCode_eq (m : TriggerMode) : modeCode m = if m = .level then 1 else 0 := by
  cases m <;> rfl

/-- Settles O40: the lowest pending kind is the one found first. -/
theorem alertTakeAnswers : Obligations.AlertTakeAnswers := by
  intro p s decoding
  refine ⟨fun empty => ?_, fun k pending least => ⟨(takeKind (heard p s) p k).alerts, ?_, rfl, rfl,
    mem_pendingOf_takeKind (heard p s) p k, mem_awaitingOf_takeKind (heard p s) p k,
    fun q differs => takeKind_other (heard p s) k differs⟩⟩
  · have none : lowestPending (heard p s) p = none := lowestPending_none empty
    exact exec_answers (body := alertTakeAnswer p) rfl decoding (by rw [alertTakeAnswer, none]; rfl)
  · have lowest : lowestPending (heard p s) p = some k := lowestPending_of_least pending least
    rw [exec_served (body := alertTakeAnswer p) rfl decoding, alertTakeAnswer, lowest, ← modeCode_eq,
      ← answered_heard_setAlerts]
    rfl

/-! ## ALERT-DONE -/

theorem kindOfNumber_beyond {b : Byte} (h : 16 ≤ b.toNat) : kindOfNumber b = none := by
  refine List.find?_eq_none.mpr fun k _ => ?_
  have := k.number.isLt
  simp
  omega

theorem kindOfNumber_of {b : Byte} {k : AlertKind} (h : b.toNat = k.number.val) :
    kindOfNumber b = some k := by
  cases found : kindOfNumber b with
  | none =>
    have absent := List.find?_eq_none.mp found k (AlertKind.mem_all k)
    simp [h] at absent
  | some j =>
    have number := List.find?_some found
    simp only [beq_iff_eq] at number
    rw [AlertKind.number_injective j k (Fin.ext (number.trans h))]

/-- Settles O41, check by check. -/
theorem alertDoneAnswers : Obligations.AlertDoneAnswers := by
  intro p kind s decoding
  refine ⟨fun beyond => ?_, fun k number => ⟨fun calm => ?_, fun waiting =>
    ⟨(acknowledgeKind (heard p s) p k).alerts, ?_, rfl, rfl, fun j => ?_,
      mem_awaitingOf_acknowledgeKind (heard p s) p k,
      fun q differs => acknowledgeKind_other (heard p s) k differs⟩⟩⟩
  · exact exec_refused (body := alertDoneAnswer p kind) rfl decoding
      (by rw [alertDoneAnswer, kindOfNumber_beyond beyond])
  · refine exec_refused (body := alertDoneAnswer p kind) rfl decoding ?_
    rw [alertDoneAnswer, kindOfNumber_of number]
    exact if_neg fun waiting => calm (List.contains_iff_mem.mp waiting)
  · rw [exec_served (body := alertDoneAnswer p kind) rfl decoding, alertDoneAnswer,
      kindOfNumber_of number, ← answered_heard_setAlerts]
    have waits : (awaitingOf (heard p s) p).contains k = true := List.contains_iff_mem.mpr waiting
    simp only [waits, if_true]
    rfl
  · have joins := mem_pendingOf_acknowledgeKind (heard p s) p k j
    rwa [condition_heard] at joins

/-! ## SELECT and SET-READ -/

/-- R176: a byte of the image as it is read, its check word formed. -/
theorem imageByte_withCheckWord_eq (img : Image) {o : Nat} (h : o < 256) :
    imageByte (withCheckWord img) o = if o = 254 then byteOf (checkWord img)
      else if o = 255 then byteOf (checkWord img / 256) else imageByte img o := by
  rw [withCheckWord, imageByte_ofFn _ o h]
  simp [imageByte, h]

/-- R167: the bytes that SET-READ answers. -/
theorem imageBytes_eq (img : Image) {start count : Nat} (fits : start + count ≤ 256) :
    imageBytes img start count = (List.range count).map fun j =>
      if start + j = 254 then byteOf (checkWord img)
      else if start + j = 255 then byteOf (checkWord img / 256)
      else imageByte img (start + j) := by
  refine List.map_congr_left fun j mem => ?_
  have below := List.mem_range.mp mem
  exact imageByte_withCheckWord_eq img (by omega)

/-- Settles O42, by the range tests of the two commands. -/
theorem selectAndSetRead : Obligations.SelectAndSetRead := by
  intro p index n s decoding
  have fits : selectorFits (portOf (heard p s) p).selector n.toNat = true ↔
      n ≠ 0 ∧ (portOf s p).selector + n.toNat ≤ 256 := by
    rw [selectorFits_iff, selector_heard]
    refine and_congr_left' (not_congr ⟨fun zero => BitVec.eq_of_toNat_eq zero, ?_⟩)
    rintro rfl
    rfl
  refine ⟨fun below => ?_, fun beyond => ?_, fun bad => ?_, fun some within => ?_⟩
  · rw [exec_served (body := selectAnswer p index) rfl decoding, selectAnswer, if_pos below]
    exact congrArg _ (answered_heard_setSelector p _ s _)
  · exact exec_refused (body := selectAnswer p index) rfl decoding
      (by rw [selectAnswer, if_neg (Nat.not_lt.mpr beyond)])
  · refine exec_refused (body := setReadAnswer p n) rfl decoding ?_
    rw [setReadAnswer]
    refine if_neg fun now => ?_
    obtain ⟨some, within⟩ := fits.mp now
    rcases bad with zero | beyond
    · exact some zero
    · omega
  · rw [exec_served (body := setReadAnswer p n) rfl decoding, setReadAnswer]
    refine (congrArg (fun a => Host.Outcome.next (answered p a))
      (if_pos (fits.mpr ⟨some, within⟩))).trans ?_
    rw [selector_heard, heard_store, imageBytes_eq _ within]
    exact congrArg _ (answered_heard_setSelector p _ s _)

/-! ## STORE -/

theorem checkWord_lt (img : Image) : checkWord img < 65536 := by
  unfold checkWord
  omega

theorem imageWord_checkWord (img : Image) :
    (imageWord (withCheckWord img) 254).toNat = checkWord img := by
  rw [imageWord, imageByte_withCheckWord_eq img (by omega), imageByte_withCheckWord_eq img (by omega)]
  exact wordOf_bytes _ (checkWord_lt img)

theorem exec_storeCompletion_idle (readBack : Image) {s : State} (idle : s.store.storing = none) :
    exec (.storeCompletion readBack) s = .next s := by
  simp only [exec, execStoreCompletion, idle]

theorem exec_storeCompletion_storing (readBack : Image) {s : State} {copy : Image}
    (storing : s.store.storing = some copy) :
    exec (.storeCompletion readBack) s = .next (storeCompleted copy readBack s) := by
  simp only [exec, execStoreCompletion, storing]

/-- R177: the kind that announces the result of a store. -/
def storeKind (copy readBack : Image) : AlertKind :=
  if readBack = copy then .storeDone else .storeFail

/-- R177: a completed store moves the store, and raises its kind. -/
theorem storeCompleted_eq (copy readBack : Image) (s : State) : storeCompleted copy readBack s =
    raiseOccurrence (storeKind copy readBack) (s.setStore { s.store with
      page := .holds readBack, storing := none,
      lastStore := if readBack = copy then .done else .failed }) := by
  simp only [storeCompleted, storeKind, beq_iff_eq]

theorem heldLost_storeCompleted (copy readBack : Image) (s : State) :
    (storeCompleted copy readBack s).alerts.heldLost = s.alerts.heldLost := by
  rw [storeCompleted_eq, heldLost_raiseOccurrence_other]
  · rfl
  unfold storeKind
  split <;> simp

/-- Settles O45: STORE's checks, and what a completion records. -/
theorem storeWritesPage : Obligations.StoreWritesPage := by
  refine ⟨fun p s decoding => ⟨fun inside => ?_, fun outside busy => ?_, fun outside idle =>
    ⟨withCheckWord s.store.image, ?_, fun o below => imageByte_withCheckWord _ o below,
      imageWord_checkWord _⟩⟩, fun readBack s => ⟨fun idle => ?_, fun copy storing =>
    ⟨(storeCompleted copy readBack s).alerts, ?_, rfl, rfl,
      heldLost_storeCompleted copy readBack s, fun q j => ?_⟩⟩⟩
  · exact exec_refused (body := storeAnswer) rfl decoding
      (by rw [storeAnswer, inSetup_heard, if_pos inside])
  · refine exec_refused (body := storeAnswer) rfl decoding ?_
    rw [storeAnswer, inSetup_heard, outside, if_neg Bool.false_ne_true, heard_store,
      if_pos (Option.isSome_iff_ne_none.mpr busy)]
  · rw [exec_served (body := storeAnswer) rfl decoding, storeAnswer, inSetup_heard, outside,
      if_neg Bool.false_ne_true, heard_store, idle]
    exact congrArg _ (answered_heard_setStore p _ s _)
  · exact exec_storeCompletion_idle readBack idle
  · rw [exec_storeCompletion_storing readBack storing, storeCompleted_eq]
    exact congrArg Host.Outcome.next (raiseOccurrence_eq _ _)
  · have pends := mem_pendingOf_raiseOccurrence (storeKind copy readBack) (s.setStore { s.store with
      page := .holds readBack, storing := none,
      lastStore := if readBack = copy then .done else .failed }) q j
    rw [← storeCompleted_eq] at pends
    refine pends.trans (or_congr Iff.rfl ⟨?_, ?_⟩)
    · rintro ⟨rfl, mask⟩
      exact ⟨rfl, mask⟩
    · rintro ⟨rfl, mask⟩
      exact ⟨rfl, mask⟩

end Sys2Proof.Machine
end

section
/-! SUPPORT. The layers between the valid probes (R11, R12), the figures of a formation (R24 to R36), and the
blocks after a reset (R181). -/

namespace Sys2Proof.Machine

/-! ## The layers -/

section Layers
variable {below : LayerId × Int}

theorem layerFrom_under (i : LayerId) (probes : List (LayerId × Int)) (under : i ≤ below.1) :
    layerFrom i below probes = below.2 := by
  cases probes with
  | nil => rfl
  | cons above rest => exact if_pos under

/-- Above the probe next passed, the layer is formed from that probe upward. -/
theorem layerFrom_over {i : LayerId} {above : LayerId × Int} (probes : List (LayerId × Int))
    (passed : below.1 < above.1) (past : above.1 ≤ i) :
    layerFrom i below (above :: probes) = layerFrom i above probes := by
  have notUnder : ¬i.val ≤ below.1.val := Nat.not_le.mpr (Nat.lt_of_lt_of_le passed past)
  have notBetween : ¬i.val < above.1.val := Nat.not_lt.mpr past
  rw [layerFrom, if_neg notUnder, if_neg notBetween]

theorem layerFrom_between {i : LayerId} {above : LayerId × Int} (probes : List (LayerId × Int))
    (past : below.1 < i) (under : i < above.1) : layerFrom i below (above :: probes) =
      below.2 + ((above.2 - below.2) * ((i.val : Int) - below.1.val)).tdiv
        ((above.1.val : Int) - below.1.val) := by
  have notUnder : ¬i.val ≤ below.1.val := Nat.not_le.mpr past
  have between : i.val < above.1.val := under
  rw [layerFrom, if_neg notUnder, if_pos between]
  rfl

/-- R11: every layer is formed from the probe that is the last at or below it and those above that. -/
theorem layerFrom_split {i : LayerId} {x : LayerId × Int} {above : List (LayerId × Int)}
    (earlier : List (LayerId × Int)) {lowest : LayerId × Int} {probes : List (LayerId × Int)}
    (ascending : (lowest :: probes).Pairwise fun x y => x.1 < y.1)
    (split : lowest :: probes = earlier ++ x :: above) (past : x.1 ≤ i) :
    layerFrom i lowest probes = layerFrom i x above := by
  induction earlier generalizing lowest probes with
  | nil =>
    cases split
    rfl
  | cons first earlier ih =>
    cases probes with
    | nil =>
      obtain ⟨-, none⟩ := List.cons.inj split
      exact absurd none.symm (by simp)
    | cons next probes =>
      obtain ⟨rfl, tail⟩ := List.cons.inj split
      obtain ⟨least, rising⟩ := List.pairwise_cons.mp ascending
      have reached : next.1 ≤ i := by
        cases earlier with
        | nil =>
          cases tail
          exact past
        | cons second earlier =>
          obtain ⟨rfl, rest⟩ := List.cons.inj tail
          have mem : x ∈ probes := by simp [rest]
          exact Nat.le_of_lt (Nat.lt_of_lt_of_le ((List.pairwise_cons.mp rising).1 x mem) past)
      rw [layerFrom_over probes (least next (List.mem_cons_self)) reached]
      exact ih rising tail

end Layers

theorem formedLayers_cons (old : Vector Int 12) (lowest : LayerId × Int)
    (rest : List (LayerId × Int)) (i : LayerId) :
    (formedLayers old (lowest :: rest))[i] = layerFrom i lowest rest := by
  simp [formedLayers]

/-- The layer at or above a valid probe. -/
theorem formedLayers_split {old : Vector Int 12} {i : LayerId} {x : LayerId × Int}
    {earlier above : List (LayerId × Int)}
    (ascending : (earlier ++ x :: above).Pairwise fun x y => x.1 < y.1) (past : x.1 ≤ i) :
    (formedLayers old (earlier ++ x :: above))[i] = layerFrom i x above := by
  cases split : earlier ++ x :: above with
  | nil => exact absurd split (by simp)
  | cons lowest rest =>
    rw [split] at ascending
    rw [formedLayers_cons, layerFrom_split earlier ascending split.symm past]

/-- Settles O24: a layer is formed from the last valid probe at or below it. -/
theorem layersInterpolate : Obligations.LayersInterpolate := by
  intro old valid ascending
  refine ⟨?_, fun x mem => ?_, ?_, ?_, ?_⟩
  · rintro rfl
    rfl
  · obtain ⟨earlier, above, rfl⟩ := List.append_of_mem mem
    rw [formedLayers_split ascending (Nat.le_refl _), layerFrom_under _ _ (Nat.le_refl _)]
  · rintro lowest rest rfl i under
    rw [formedLayers_cons, layerFrom_under _ _ (Nat.le_of_lt under)]
  · rintro below highest rfl i past
    rw [formedLayers_split ascending (Nat.le_of_lt past)]
    rfl
  · rintro below x y above rfl i past under
    rw [formedLayers_split ascending (Nat.le_of_lt past), layerFrom_between above past under]

/-! ## The figures -/

theorem saturatingSum_eq (terms : List Nat) : saturatingSum terms = min 65535 terms.sum := by
  rw [saturatingSum, saturate, Nat.min_comm]

theorem disinfectionDeficit_eq (img : Image) (layers : Vector Int 12) : disinfectionDeficit img layers =
    min 65535 (((List.finRange 12).filter fun i => (imageByte img 0x030).toNat ≤ i.val).map fun i =>
      (imageByte img i.val).toNat * (tDis img - layers[i]).toNat * 1163 / 16000).sum := by
  rw [disinfectionDeficit, saturatingSum_eq]
  simp only [comfortLayers, comfortFloor, allLayers, energyShort, layerVolumes, imageU8,
    Fin.getElem_fin, Vector.getElem_ofFn]
  rfl

theorem workingDeficit_eq (inp : FormationInputs) (deficit : Nat) : workingDeficit inp deficit =
    if inp.cycle = .due then max deficit (disinfectionDeficit inp.settings inp.layers)
    else deficit := by
  rw [workingDeficit]
  cases inp.cycle <;> simp

/-- Settles O29, figure by figure. -/
theorem formationFigures : Obligations.FormationFigures := by
  intro inp f img short usable
  have comfort : f.comfort = min 65535 (comfortBase img + inp.comfortAmounts.sum) := by
    rw [← List.sum_cons]
    exact saturatingSum_eq _
  have usableEnergy : comfortEnergy inp.settings inp.layers = usable := comfortEnergy_eq _ _
  have deficit : f.deficit = f.comfort - usable := by rw [← usableEnergy]; rfl
  have aside : f.setAside = isSetAside inp f.yieldFlag := rfl
  refine ⟨comfort, deficit, ?_, saturatingSum_eq _, rfl, ?_, rfl, ?_⟩
  · exact decide_eq_true_iff
  · rw [aside]
    simp [isSetAside, or_assoc]
  · have need : f.need = powerNeed (workingDeficit inp f.deficit) (recoveryTime img) := rfl
    have ofShort : disinfectionDeficit inp.settings inp.layers = short := disinfectionDeficit_eq _ _
    rw [need, workingDeficit_eq, ofShort]

/-! ## The blocks after a reset -/

/-- Every kind of reset that takes place does to the blocks what R181 says. -/
theorem exec_reset {c : Instr} {s : State}
    (takes : c = .powerOnReset ∨ (c = .resetPinReset ∧ s.part.rstnHeld = false) ∨
      (c = .supplyLowReset ∧ s.part.rstnHeld = false ∧ s.part.supplyHeld = false) ∨
      (c = .restartReset ∧ ∃ p, restartArmedAt s p = true)) :
    ∃ cause rstn supply, exec c s = .next (resetBlocks (resetPart cause rstn supply) s) := by
  rcases takes with rfl | ⟨rfl, free⟩ | ⟨rfl, free, supplied⟩ | ⟨rfl, p, armed⟩
  · exact ⟨_, _, _, rfl⟩
  · exact ⟨_, _, _, if_neg (by simp [free])⟩
  · exact ⟨_, _, _, if_neg (by simp [free, supplied])⟩
  · exact ⟨_, _, _, exec_restartReset_armed armed⟩

section Reset
variable {t : State}

theorem frameOf_freshPool {img : Image} (pool : t.pool = freshPool img) (i : FrameId) :
    frameOf t i = clearedFrame .free := by
  simp [frameOf, pool, freshPool]

theorem lists_freshPool {img : Image} (pool : t.pool = freshPool img) (p : PortId) :
    postList t p = [] ∧ replyQueue t p = [] := by
  simp [postList, replyQueue, pool, freshPool]

theorem sets_freshAlerts {img : Image} (alerts : t.alerts = freshAlerts img) (p : PortId) :
    pendingOf t p = [] ∧ awaitingOf t p = [] ∧ t.alerts.heldLost[p] = false := by
  simp [pendingOf, awaitingOf, alerts, freshAlerts]

theorem portOf_freshPorts {img : Image} (ports : t.ports = freshPorts img) (p : PortId) :
    portOf t p = resetPort := by
  simp [portOf, ports, freshPorts]

theorem attentionLine_halted (halted : isRunning t = false) (p : PortId) :
    attentionLine t p = false := by
  rw [attentionLine, halted, Bool.false_and]

theorem permitLine_halted (halted : isRunning t = false) (k : SlotId) : permitLine t k = false := by
  rw [permitLine, halted, Bool.false_and]

end Reset

theorem wireOf_resetBlocks (part : Part) (s : State) (p : PortId) :
    wireOf (resetBlocks part s) p = wireAfterReset (wireOf s p) := by
  simp [wireOf, resetBlocks]

theorem wireAfterReset_disregarded (w : Wire) :
    (wireAfterReset w).disregarded = true ↔ w.select = .low := by
  simp [wireAfterReset]

theorem pageAfterReset_idle {st : SettingsStore} (idle : st.storing = none) :
    pageAfterReset st = st.page := by
  simp [pageAfterReset, idle]

theorem pageAfterReset_storing {st : SettingsStore} (storing : st.storing ≠ none) :
    pageAfterReset st = .torn :=
  if_pos (Option.isSome_iff_ne_none.mpr storing)

/-- Settles O52: every block is fresh, but for the page and the serial lines. -/
theorem resetsReturnBlocks : Obligations.ResetsReturnBlocks := by
  intro c s takes
  obtain ⟨cause, rstn, supply, reset⟩ := exec_reset takes
  refine ⟨_, reset, rfl, rfl, fun n => ?_, fun i => ?_, rfl, rfl, rfl, fun k => ?_, fun i => ?_,
    fun p => ?_, rfl, rfl, rfl, rfl, rfl, rfl, rfl, fun i => ?_, rfl, rfl, fun l => ?_, rfl, rfl, rfl,
    fun p => ?_, rfl, rfl, rfl, pageAfterReset_idle, pageAfterReset_storing⟩
  · simp [resetBlocks, State.reset, freshScanner, freshProbe]
  · simp [resetBlocks, State.reset, resetModel]
  · rw [grantOf_fresh (img := factoryImage) rfl]
    exact ⟨permitLine_halted rfl k, rfl, rfl, rfl, rfl, rfl, rfl, rfl⟩
  · rw [frameOf_freshPool (img := factoryImage) rfl]
    exact ⟨rfl, by decide⟩
  · obtain ⟨posted, replies⟩ := lists_freshPool (img := factoryImage)
      (t := resetBlocks (resetPart cause rstn supply) s) rfl p
    obtain ⟨pending, awaiting, held⟩ := sets_freshAlerts (img := factoryImage)
      (t := resetBlocks (resetPart cause rstn supply) s) rfl p
    exact ⟨posted, replies, attentionLine_halted rfl p, pending, awaiting, held,
      portOf_freshPorts (img := factoryImage) rfl p⟩
  · simp [resetBlocks, State.reset, freshPlanner]
  · cases l <;> rfl
  · rw [wireOf_resetBlocks]
    exact ⟨rfl, rfl, wireAfterReset_disregarded _⟩

end Sys2Proof.Machine
end

section
/-! SUPPORT. The start of a scan (R5, R6), the reads before its last (R1), and what its completion leaves
outside the sources (R7, R119). -/

namespace Sys2Proof.Machine

/-! ## What a completion keeps -/

theorem applyScan_scanner (scan : Scan) (s : State) : (applyScan scan s).scanner =
    { s.scanner with probes := updatedProbes scan s.scanner.probes, scan := none } := rfl

theorem frameOf_applyScan (scan : Scan) (s : State) (i : FrameId) :
    frameOf (applyScan scan s) i = frameOf s i := rfl

theorem grantOf_applyScan (scan : Scan) (s : State) (k : SlotId) :
    grantOf (applyScan scan s) k = grantOf s k := rfl

theorem scanApplied_frame (scan : Scan) (s : State) (i : FrameId) :
    frameOf (scanApplied scan s) i = frameOf (neighboursTake scan (applyScan scan s)) i := by
  obtain ⟨alerts, eq⟩ := scanApplied_eq scan s
  simp only [frameOf, eq, State.nextDraw_pool, State.setAlerts_pool]

theorem scanApplied_grant (scan : Scan) (s : State) (k : SlotId) :
    grantOf (scanApplied scan s) k = grantOf (neighboursTake scan (applyScan scan s)) k := by
  obtain ⟨alerts, eq⟩ := scanApplied_eq scan s
  simp only [grantOf, eq, State.nextDraw_table, State.setAlerts_table]

/-- R15: a completion reaches neither the settings nor what is copied from them. -/
theorem scanApplied_settingsKept (scan : Scan) (s : State) : settingsKept s (scanApplied scan s) := by
  have kept := scanApplied_eventKept scan s
  obtain ⟨alerts, eq⟩ := scanApplied_eq scan s
  obtain ⟨overtemp, moved⟩ := neighboursTake_eq scan (applyScan scan s)
  have cycle : (scanApplied scan s).cycle = s.cycle := by
    rw [eq, State.nextDraw_cycle, State.setAlerts_cycle, moved.cycle_eq]
    rfl
  exact ⟨kept.part, cycle, scanApplied_ports scan s, kept.wires, scanApplied_store scan s,
    kept.records, kept.modes, kept.shares, kept.freeLists, kept.postLists⟩

/-- R119, R120: the Safety Monitor at a completion. -/
theorem neighboursTake_safety (scan : Scan) (s : State) : (neighboursTake scan s).safety =
    if s.model.state = .none then s.safety
    else { s.safety with overtemp := overtempAfter scan s } := by
  unfold neighboursTake
  split
  · exact (revokeAll_moved _ s).safety_eq
  · dsimp only
    split
    · rw [(revokeAll_moved _ _).safety_eq, (endAtTarget_moved _ _).safety_eq]
      rfl
    · rw [(endAtTarget_moved _ _).safety_eq]
      rfl

theorem scanApplied_safety_eq (scan : Scan) (s : State) : (scanApplied scan s).safety =
    (neighboursTake scan (applyScan scan s)).safety := by
  obtain ⟨alerts, eq⟩ := scanApplied_eq scan s
  rw [eq, State.nextDraw_safety, State.setAlerts_safety]

theorem scanApplied_safety (scan : Scan) (s : State) : (scanApplied scan s).safety =
    if (applyScan scan s).model.state = .none then s.safety
    else { s.safety with overtemp := overtempAfter scan (applyScan scan s) } := by
  rw [scanApplied_safety_eq, neighboursTake_safety]
  rfl

theorem revokeAll_stopped (cause : EndCause) (s : State) (k : SlotId) :
    (grantOf (revokeAll cause s) k).state ≠ .running := by
  by_cases running : (grantOf s k).state = .running
  · exact endGrants_stopped cause s _ (by simpa [runningSlots, isGrantRunning] using running)
  · rw [grantOf_revokeAll_other cause s k running]
    exact running

theorem neighboursTake_of_none (scan : Scan) {s : State} (none : s.model.state = .none) :
    neighboursTake scan s = revokeAll .modelNone s := by
  rw [neighboursTake, if_pos none]

/-- R120: a completion that makes overtemperature ACTIVE. -/
def overtempRises (scan : Scan) (s : State) : Bool := overtempAfter scan s && !s.safety.overtemp

/-- R16: the slots whose target-reached check is taken before the overtemperature revocation. -/
def checkedSlots (scan : Scan) (s : State) : List SlotId :=
  allSlots.filter fun k =>
    targetReached s k && (!overtempRises scan s || Config.targetCheckFirst s.openDraws k)

/-- R119: overtemperature as judged, and the target-reached check. -/
def targetsChecked (scan : Scan) (s : State) : State :=
  endAtTarget (s.setSafety { s.safety with overtemp := overtempAfter scan s }) (checkedSlots scan s)

theorem neighboursTake_of_layers (scan : Scan) {s : State} (layers : s.model.state ≠ .none) :
    neighboursTake scan s = if overtempRises scan s then revokeAll .overtemp (targetsChecked scan s)
      else targetsChecked scan s := by
  rw [neighboursTake, if_neg layers]
  rfl

/-- R120: no source runs once overtemperature is ACTIVE after having been CLEAR. -/
theorem neighboursTake_stopped {scan : Scan} {s : State} (clear : s.safety.overtemp = false)
    (active : (neighboursTake scan s).safety.overtemp = true) (k : SlotId) :
    (grantOf (neighboursTake scan s) k).state ≠ .running := by
  by_cases none : s.model.state = .none
  · rw [neighboursTake_of_none scan none]
    exact revokeAll_stopped _ s k
  · rw [neighboursTake_safety, if_neg none] at active
    have rises : overtempRises scan s = true := by
      simp only [overtempRises, clear]
      simpa using active
    rw [neighboursTake_of_layers scan none, if_pos rises]
    exact revokeAll_stopped _ _ k

/-! ## The end of a scan -/

/-- R7, R89: a completion is applied, and the first one outside SETUP brings a period start. -/
theorem scanCompleted_cases (scan : Scan) {s : State}
    (steady : s.model.scanCompleted = true ∨ inSetup s = false) :
    (s.model.scanCompleted = true ∧ scanCompleted scan s = scanApplied scan s) ∨
      (s.model.scanCompleted = false ∧
        scanCompleted scan s = periodStartTaken true (scanApplied scan s)) := by
  cases completed : s.model.scanCompleted with
  | true => exact .inl ⟨rfl, if_pos completed⟩
  | false =>
    refine .inr ⟨rfl, (if_neg (by simp [completed])).trans ?_⟩
    have outside : inSetup s = false := steady.resolve_left (by simp [completed])
    have noHolder : holderFallsSilent (scanApplied scan s) = false := by
      have setup : s.store.setup = none := by simpa [inSetup] using outside
      simp [holderFallsSilent, setupHolder, scanApplied_store, setup]
    rw [periodStart, noHolder]
    exact if_neg Bool.false_ne_true

theorem scanCompleted_later (scan : Scan) {s : State} (completed : s.model.scanCompleted = true) :
    scanCompleted scan s = scanApplied scan s := if_pos completed

/-- R7, R93: what a completion does to the blocks that a period start does not reach. -/
theorem scanCompleted_blocks (scan : Scan) {s : State}
    (steady : s.model.scanCompleted = true ∨ inSetup s = false) :
    (scanCompleted scan s).model = (scanApplied scan s).model ∧
      (scanCompleted scan s).scanner = (scanApplied scan s).scanner ∧
      (scanCompleted scan s).safety = (scanApplied scan s).safety ∧
      runsFewer (scanApplied scan s) (scanCompleted scan s) := by
  rcases scanCompleted_cases scan steady with ⟨-, eq⟩ | ⟨-, eq⟩
  · rw [eq]
    exact ⟨rfl, rfl, rfl, .refl _⟩
  · obtain ⟨-, scanner, model, safety, -⟩ := periodStartTaken_periodKept true (scanApplied scan s)
    rw [eq]
    exact ⟨model, scanner, safety, periodStartTaken_runsFewer true _⟩

/-! ## Scan start -/

theorem exec_scanStart {s : State} (running : isRunning s = true) (idle : s.scanner.scan = none) :
    exec .scanStart s = .next (completeIfEmpty (beginScan s)) := by
  have guard : (isRunning s && s.scanner.scan.isNone) = true := by simp [running, idle]
  simp only [exec, execScanStart, guard, if_true]

/-- R5: the scan that starts. -/
def begunScan (s : State) : Scan :=
  { toRead := configuredSlots s, results := [], holdLimit := holdLimit s.store.image,
    inversionMargin := inversionMargin s.store.image, tLimit := tLimit s.store.image,
    hysteresis := hysteresis s.store.image }

theorem beginScan_scan (s : State) : (beginScan s).scanner.scan = some (begunScan s) := rfl

theorem configuredSlots_nil {s : State} (unused : ∀ n : ProbeId, (s.scanner.probes[n]).layer = none) :
    configuredSlots s = [] :=
  List.filter_eq_nil_iff.mpr fun n _ => by rw [unused n]; simp

theorem configuredSlots_cons {s : State} {n : ProbeId} (used : (s.scanner.probes[n]).layer ≠ none) :
    configuredSlots s ≠ [] := by
  have mem : n ∈ configuredSlots s :=
    List.mem_filter.mpr ⟨List.mem_finRange n, Option.isSome_iff_ne_none.mpr used⟩
  exact List.ne_nil_of_mem mem

theorem completeIfEmpty_reading {s : State} {scan : Scan} (inFlight : s.scanner.scan = some scan)
    (reads : scan.toRead ≠ []) : completeIfEmpty s = s := by
  simp [completeIfEmpty, emptyScan, inFlight, reads]

theorem completeIfEmpty_empty {s : State} {scan : Scan} (inFlight : s.scanner.scan = some scan)
    (empty : scan.toRead = []) : completeIfEmpty s = scanCompleted scan s := by
  simp [completeIfEmpty, emptyScan, inFlight, empty]

/-- R8: with no configured slot no probe is valid. -/
theorem validProbes_nil {probes : Vector ProbeSlot 8} (unused : ∀ n : ProbeId, (probes[n]).layer = none)
    (rank : ProbeId → Nat) : validProbes probes rank = [] := by
  refine List.flatMap_eq_nil_iff.mpr fun i _ => ?_
  have nothing : ((List.finRange 8).filter fun n => isValid probes[n] && (probes[n]).layer == some i) =
      [] := List.filter_eq_nil_iff.mpr fun n _ => by
      have none : (probes[n]).layer = none := unused n
      rw [none]
      simp
  rw [atLayer, nothing]
  rfl

/-- R10, R12, R13: the model after a completion with no configured slot. -/
theorem scanApplied_model_empty {scan : Scan} {s : State} (nothing : scan.results = [])
    (unused : ∀ n : ProbeId, (s.scanner.probes[n]).layer = none) : (scanApplied scan s).model =
      { layers := s.model.layers, state := .none, scanCompleted := true, inversion := false } := by
  have valid : validProbes (updatedProbes scan s.scanner.probes)
      (Config.sharedLayerRank s.openDraws) = [] := by
    rw [updatedProbes_nothing scan _ nothing]
    exact validProbes_nil unused _
  have model : (applyScan scan s).model = completedModel s.model scan.inversionMargin
      (validProbes (updatedProbes scan s.scanner.probes) (Config.sharedLayerRank s.openDraws)) := rfl
  rw [scanApplied_model, model, valid]
  rfl

/-- R17: a completion in NONE ends every grant and reaches the requests' results alone. -/
theorem scanApplied_none {scan : Scan} {s : State} (none : (scanApplied scan s).model.state = .none) :
    poolKept s (scanApplied scan s) ∧ (∀ k, (grantOf (scanApplied scan s) k).state ≠ .running) := by
  rw [scanApplied_model] at none
  obtain ⟨alerts, eq⟩ := scanApplied_eq scan s
  rw [neighboursTake_of_none scan none] at eq
  have kept : poolKept s (revokeAll .modelNone (applyScan scan s)) :=
    revokeAll_kept .modelNone (applyScan scan s)
  rw [eq]
  exact ⟨kept, revokeAll_stopped .modelNone (applyScan scan s)⟩

/-- Settles O20: a scan with nothing to read completes as it begins. -/
theorem scanStartBeginsReads : Obligations.ScanStartBeginsReads := by
  intro s running idle
  rw [exec_scanStart running idle]
  refine ⟨fun ⟨n, used⟩ => ?_, fun unused completed => ?_⟩
  · rw [completeIfEmpty_reading (beginScan_scan s) (configuredSlots_cons used)]
    rfl
  · rw [completeIfEmpty_empty (beginScan_scan s) (configuredSlots_nil unused),
      scanCompleted_later (s := beginScan s) _ completed]
    have model := scanApplied_model_empty (scan := begunScan s) (s := beginScan s) rfl unused
    have none : (scanApplied (begunScan s) (beginScan s)).model.state = .none := by rw [model]
    obtain ⟨pool, stopped⟩ := scanApplied_none none
    have scanner := scanApplied_scanner (begunScan s) (beginScan s)
    have safety := scanApplied_safety (begunScan s) (beginScan s)
    rw [← scanApplied_model, if_pos none] at safety
    rw [updatedProbes_nothing _ _ rfl] at scanner
    have planner := scanApplied_planner (begunScan s) (beginScan s)
    have settings := scanApplied_settingsKept (begunScan s) (beginScan s)
    have others (k : SlotId) := grantOf_scanApplied_other (begunScan s) (beginScan s) k
    generalize scanApplied (begunScan s) (beginScan s) = t at *
    exact ⟨t, rfl, by rw [scanner], by rw [scanner]; rfl, model, planner, safety, settings, pool,
      fun k => ⟨stopped k, others k⟩⟩

/-! ## The reads before the last -/

theorem readEnded_next {s : State} {scan : Scan} {n m : ProbeId} {rest : List ProbeId} (r : ReadResult)
    (reads : scan.toRead = n :: m :: rest) : readEnded s scan r = s.setScanner { s.scanner with
      scan := some { scan with toRead := m :: rest, results := scan.results ++ [(n, r)] } } := by
  simp [readEnded, keepResult, reads]

theorem currentRead_none {s : State} (idle : ∀ scan, s.scanner.scan = some scan → scan.toRead = []) :
    currentRead s = none := by
  cases read : currentRead s with
  | none => rfl
  | some pair =>
    obtain ⟨inFlight, rest, toRead⟩ := currentRead_some read
    rw [idle _ inFlight] at toRead
    cases toRead

/-- Settles O21, by the read in progress. -/
theorem readResultKeptInScan : Obligations.ReadResultKeptInScan := by
  refine ⟨fun s scan n m rest c r inFlight reads ends => ?_, fun s low high check idle => ?_⟩
  · rw [exec_endsRead inFlight reads ends, readEnded_next r reads]
  · have none := currentRead_none idle
    refine ⟨?_, ?_⟩
    · rw [exec_probeRead, execProbeRead, none]
    · rw [exec_answerWindowClose, execAnswerWindowClose, none]

/-! ## Overtemperature -/

section Overtemp
variable {scan : Scan} {s : State}

theorem overtempAfter_clear (layers : s.model.state ≠ .none) (clear : s.safety.overtemp = false) :
    overtempAfter scan s = true ↔ ∃ i : LayerId, scan.tLimit ≤ s.model.layers[i] := by
  simp [overtempAfter, layers, clear, allLayers]

theorem overtempAfter_active (layers : s.model.state ≠ .none) (active : s.safety.overtemp = true) :
    overtempAfter scan s = false ↔
      ∀ i : LayerId, s.model.layers[i] < scan.tLimit - (scan.hysteresis : Int) := by
  simp only [overtempAfter, layers, active, allLayers, if_false, if_true]
  simp only [List.any_eq_false, List.mem_finRange, decide_eq_true_eq, forall_const, Int.not_le]

end Overtemp

/-- The scan whose last read has ended. -/
def scanRead (scan : Scan) (n : ProbeId) (r : ReadResult) : Scan :=
  { scan with toRead := [], results := scan.results ++ [(n, r)] }

theorem exec_lastRead {s : State} {scan : Scan} {n : ProbeId} {c : Instr} {r : ReadResult}
    (inFlight : s.scanner.scan = some scan) (reads : scan.toRead = [n]) (ends : endsRead s n c r) :
    exec c s = .next (scanCompleted (scanRead scan n r) s) := by
  rw [exec_endsRead inFlight reads ends, readEnded_last r reads]
  rfl

/-- Settles O26, by the judgement on the completed layers. -/
theorem completionJudgesOvertemperature : Obligations.CompletionJudgesOvertemperature := by
  intro s scan n c r inFlight reads ends steady
  refine ⟨_, exec_lastRead inFlight reads ends, ?_⟩
  obtain ⟨model, -, safety, fewer⟩ := scanCompleted_blocks (scanRead scan n r) steady
  have judged := scanApplied_safety (scanRead scan n r) s
  have applied := scanApplied_model (scanRead scan n r) s
  have clears (layers : (applyScan (scanRead scan n r) s).model.state ≠ .none)
      (clear : s.safety.overtemp = false) :=
    overtempAfter_clear (s := applyScan (scanRead scan n r) s) (scan := scanRead scan n r) layers clear
  have stays (layers : (applyScan (scanRead scan n r) s).model.state ≠ .none)
      (active : s.safety.overtemp = true) :=
    overtempAfter_active (s := applyScan (scanRead scan n r) s) (scan := scanRead scan n r) layers active
  have stopped (clear : s.safety.overtemp = false)
      (active : (scanApplied (scanRead scan n r) s).safety.overtemp = true) (k : SlotId) :
      (grantOf (scanApplied (scanRead scan n r) s) k).state ≠ .running := by
    rw [scanApplied_safety_eq] at active
    rw [scanApplied_grant]
    exact neighboursTake_stopped (s := applyScan (scanRead scan n r) s) clear active k
  rw [model, safety, applied]
  refine ⟨fun none => ?_, fun layers => ?_, fun clear active k running => ?_⟩
  · rw [judged, if_pos none]
  · rw [judged, if_neg layers]
    dsimp only
    exact ⟨rfl, rfl, clears layers, stays layers⟩
  · exact stopped clear active k (fewer k running)

end Sys2Proof.Machine
end

section
/-! SUPPORT. The last read of a scan: the valid probes (R8, R11), the model they form (R10, R13), and what
the completion does to the sources (R17, R49, R50, R81). -/

namespace Sys2Proof.Machine

/-! ## The valid probes -/

theorem mem_insertByRank (rank : ProbeId → Nat) (n m : ProbeId) (l : List ProbeId) :
    m ∈ insertByRank rank n l ↔ m = n ∨ m ∈ l := by
  induction l with
  | nil => simp [insertByRank]
  | cons a l ih =>
    rw [insertByRank]
    split
    · simp
    · rw [List.mem_cons, ih, List.mem_cons]
      exact or_left_comm

theorem mem_foldr_insertByRank (rank : ProbeId → Nat) (m : ProbeId) (l : List ProbeId) :
    m ∈ l.foldr (insertByRank rank) [] ↔ m ∈ l := by
  induction l with
  | nil => simp
  | cons a l ih => rw [List.foldr_cons, mem_insertByRank, ih, List.mem_cons]

theorem length_insertByRank (rank : ProbeId → Nat) (n : ProbeId) (l : List ProbeId) :
    (insertByRank rank n l).length = l.length + 1 := by
  induction l with
  | nil => rfl
  | cons a l ih =>
    rw [insertByRank]
    split
    · rfl
    · rw [List.length_cons, ih, List.length_cons]

/-- R8: the valid probes of a layer. -/
theorem mem_atLayer (probes : Vector ProbeSlot 8) (rank : ProbeId → Nat) (i : LayerId) (n : ProbeId) :
    n ∈ atLayer probes rank i ↔ isValid probes[n] = true ∧ (probes[n]).layer = some i := by
  have chosen : n ∈ (List.finRange 8).filter (fun n =>
      isValid probes[n] && (probes[n]).layer == some i) ↔
      isValid probes[n] = true ∧ (probes[n]).layer = some i := by simp
  rw [← chosen, atLayer]
  split
  case h_1 none => rw [none]
  case h_2 one => rw [one]
  case h_3 several => rw [several, mem_foldr_insertByRank]

/-- R11: a valid probe, as its layer and its last valid reading. -/
theorem mem_validProbes (probes : Vector ProbeSlot 8) (rank : ProbeId → Nat) (i : LayerId) (v : Int) :
    (i, v) ∈ validProbes probes rank ↔ ∃ m : ProbeId, (probes[m]).layer = some i ∧
      ((probes[m]).state = .ok ∨ (probes[m]).state = .holding) ∧ (probes[m]).lastValid = v := by
  have valid (x : ProbeSlot) (at' : x.layer = some i) : isValid x = true ↔
      x.state = .ok ∨ x.state = .holding := by simp [isValid, at']
  unfold validProbes
  rw [List.mem_flatMap]
  constructor
  · rintro ⟨j, -, mem⟩
    obtain ⟨m, chosen, pair⟩ := List.mem_map.mp mem
    obtain ⟨rfl, rfl⟩ := Prod.mk.inj pair
    obtain ⟨reads, layer⟩ := (mem_atLayer probes rank j m).mp chosen
    exact ⟨m, layer, (valid _ layer).mp reads, rfl⟩
  · rintro ⟨m, layer, reads, rfl⟩
    exact ⟨i, List.mem_finRange i, List.mem_map.mpr
      ⟨m, (mem_atLayer probes rank i m).mpr ⟨(valid _ layer).mpr reads, layer⟩, rfl⟩⟩

/-- No two configured slots share a layer. -/
def layersApart (probes : Vector ProbeSlot 8) : Prop :=
  ∀ a b : ProbeId, (probes[a]).layer = (probes[b]).layer → (probes[a]).layer ≠ none → a = b

/-- R4: where no two slots share a layer, the probes of a layer are no two. -/
theorem atLayer_single {probes : Vector ProbeSlot 8} (apart : layersApart probes)
    (rank : ProbeId → Nat) (i : LayerId) : (atLayer probes rank i).Pairwise fun _ _ => False := by
  have chosen (n : ProbeId) (mem : n ∈ (List.finRange 8).filter fun n =>
      isValid probes[n] && (probes[n]).layer == some i) : (probes[n]).layer = some i := by
    simp only [List.mem_filter, Bool.and_eq_true, beq_iff_eq] at mem
    exact mem.2.2
  have distinct := (List.nodup_finRange 8).filter fun n =>
    isValid probes[n] && (probes[n]).layer == some i
  rw [atLayer]
  split
  case h_1 => exact List.Pairwise.nil
  case h_2 => exact List.pairwise_singleton _ _
  case h_3 n m rest several =>
    rw [several] at distinct chosen
    have first := chosen n (by simp)
    have second := chosen m (by simp)
    have same := apart n m (first.trans second.symm) (by rw [first]; simp)
    rw [same] at distinct
    exact absurd distinct (by simp)

/-- R11: the valid probes in ascending order of layer position. -/
theorem validProbes_ascending {probes : Vector ProbeSlot 8} (apart : layersApart probes)
    (rank : ProbeId → Nat) : (validProbes probes rank).Pairwise fun x y => x.1 < y.1 := by
  unfold validProbes
  refine List.pairwise_flatMap.mpr ⟨fun i _ => ?_, ?_⟩
  · exact List.pairwise_map.mpr ((atLayer_single apart rank i).imp fun no => no.elim)
  · refine (List.pairwise_lt_finRange 12).imp fun {i j} below x memX y memY => ?_
    obtain ⟨n, -, rfl⟩ := List.mem_map.mp memX
    obtain ⟨m, -, rfl⟩ := List.mem_map.mp memY
    exact below

/-- R8: an update leaves the layer of a slot. -/
theorem updatedProbe_layer (limit : Nat) (slot : ProbeSlot) (r : ReadResult) :
    (updatedProbe limit slot r).layer = slot.layer := by
  unfold updatedProbe
  split <;> rfl

theorem updatedProbes_layer (scan : Scan) (probes : Vector ProbeSlot 8) (n : ProbeId) :
    ((updatedProbes scan probes)[n]).layer = (probes[n]).layer := by
  simp only [updatedProbes, Fin.getElem_fin, getElem_each]
  split
  · rfl
  · exact updatedProbe_layer _ _ _

/-- R13: two neighbours among the valid probes of which the upper reads colder by more than the margin. -/
theorem invertedPair_iff (margin : Nat) (valid : List (LayerId × Int)) : invertedPair margin valid = true ↔
    ∃ below x y above, valid = below ++ x :: y :: above ∧ (margin : Int) < x.2 - y.2 := by
  induction valid with
  | nil => simp [invertedPair]
  | cons lower rest ih =>
    cases rest with
    | nil =>
      refine ⟨fun no => (nomatch no), ?_⟩
      rintro ⟨below, x, y, above, split, -⟩
      have := congrArg List.length split
      simp at this
      omega
    | cons upper rest =>
      rw [invertedPair, Bool.or_eq_true, decide_eq_true_eq, ih]
      constructor
      · rintro (colder | ⟨below, x, y, above, split, colder⟩)
        · exact ⟨[], lower, upper, rest, rfl, colder⟩
        · exact ⟨lower :: below, x, y, above, by rw [split]; rfl, colder⟩
      · rintro ⟨below, x, y, above, split, colder⟩
        cases below with
        | nil =>
          cases split
          exact .inl colder
        | cons first below =>
          obtain ⟨-, rest⟩ := List.cons.inj split
          exact .inr ⟨below, x, y, above, rest, colder⟩

/-- R13: an inversion needs two valid probes, with which the model is FULL. -/
theorem completedModel_inversion (old : LayerModel) (margin : Nat) (valid : List (LayerId × Int)) :
    (completedModel old margin valid).inversion = true ↔
      ∃ below x y above, valid = below ++ x :: y :: above ∧ (margin : Int) < x.2 - y.2 := by
  rw [← invertedPair_iff]
  have inversion : (completedModel old margin valid).inversion =
      (modelStateFor valid.length == .full && invertedPair margin valid) := rfl
  rw [inversion, Bool.and_eq_true, and_iff_right_iff_imp]
  intro pair
  obtain ⟨below, x, y, above, rfl, -⟩ := (invertedPair_iff margin valid).mp pair
  have two : 2 ≤ (below ++ x :: y :: above).length := by simp; omega
  rw [modelStateFor, if_pos two]
  rfl

/-! ## The sources at a completion -/

section Sources
variable {s t u : State} {i : FrameId} {k : SlotId}

/-- R47: an end that holds its request on is a matter of one frame and one slot. -/
theorem endedHolding.congr {cause : EndCause} (h : endedHolding cause s t i k)
    (frame : frameOf u i = frameOf t i) (grant : grantOf u k = grantOf t k) :
    endedHolding cause s u i k := by
  obtain ⟨state, result, ended⟩ := h
  exact ⟨by rw [frame, state], by rw [frame, result], by rw [grant, ended]⟩

theorem endedAtTarget.congr (h : endedAtTarget s t i k) (frame : frameOf u i = frameOf t i)
    (grant : grantOf u k = grantOf t k) : endedAtTarget s u i k := by
  refine ⟨fun heat => ?_, fun standing => (h.2 standing).congr frame grant⟩
  obtain ⟨state, result, ended⟩ := h.1 heat
  exact ⟨by rw [frame, state], by rw [frame, result], by rw [grant, ended]⟩

theorem endedHolding.congr_before {cause : EndCause} (h : endedHolding cause t u i k)
    (frame : frameOf t i = frameOf s i) (record : recordOf t k = recordOf s k)
    (grant : grantOf t k = grantOf s k) : endedHolding cause s u i k := by
  simpa only [endedHolding, frame, record, grant] using h

/-- R47, R120: a revocation of every grant, at a RUNNING source with its request. -/
theorem revokeAll_endedHolding (cause : EndCause) (running : (grantOf s k).state = .running)
    (alone : holdsAlone s i k) : endedHolding cause s (revokeAll cause s) i k := by
  have mem : k ∈ runningSlots s := by simpa [runningSlots, isGrantRunning] using running
  obtain ⟨grant, result⟩ := endGrants_ends cause mem running
  have held := alone.heldFor_eq
  rw [held] at grant
  exact ⟨((endGrants_kept cause s _).2.2.2.2 i).1, result i held, grant⟩

/-- R49: a slot that reaches its target without a request held for it. -/
theorem grantOf_endAtTarget_unheld {slots : List SlotId} (mem : k ∈ slots)
    (running : (grantOf s k).state = .running) (none : heldFor s k = none) :
    grantOf (endAtTarget s slots) k = grantEnded (recordOf s k).minRest false (grantOf s k) := by
  have kept := endGrants_kept .target s slots
  have grant := (endGrants_ends .target mem running).1
  rw [none] at grant
  rw [endAtTarget, grantOf_endRequests, if_neg, grant]
  · rfl
  · rintro ⟨⟨j, -, slot⟩, -⟩
    rw [kept.heldSlot_eq] at slot
    have some := (heldFor_isSome s k).mpr ⟨j, slot⟩
    rw [none] at some
    cases some

/-- R49, R81: the requests that stay held through the target-reached check. -/
theorem heldSlot_endAtTarget {slots : List SlotId} (held : heldSlot (endAtTarget s slots) i = some k) :
    heldSlot s i = some k := by
  rw [endAtTarget, heldSlot_endRequests] at held
  split at held
  · cases held
  · rwa [(endGrants_kept .target s slots).heldSlot_eq] at held

theorem endAtTarget_stopped {slots : List SlotId} (mem : k ∈ slots) :
    (grantOf (endAtTarget s slots) k).state ≠ .running := fun running =>
  endGrants_stopped .target s slots mem (endRequests_runsFewer _ _ _ k running)

end Sources

/-- R49: the coil-top layer of a slot is at its target. -/
def atTarget (s : State) (k : SlotId) : Prop :=
  (grantOf s k).target ≤ s.model.layers[(recordOf s k).coilTop]

theorem mem_checkedSlots {scan : Scan} {s : State} {k : SlotId} (running : (grantOf s k).state = .running) :
    k ∈ checkedSlots scan s ↔ atTarget s k ∧
      (overtempRises scan s = false ∨ Config.targetCheckFirst s.openDraws k = true) := by
  simp [checkedSlots, targetReached, isGrantRunning, running, atTarget]

/-- R49, R50, R81, R120: what a completion in FULL or SINGLE does to a RUNNING source and its request. -/
def completionTaken (rises reached : Prop) (s t : State) (k : SlotId) : Prop :=
  (¬rises → ¬reached → grantOf t k = grantOf s k ∧
    ∀ i, heldSlot s i = some k → frameOf t i = frameOf s i) ∧
  (¬rises → reached → heldFor s k = none →
    grantOf t k = grantEnded (recordOf s k).minRest false (grantOf s k)) ∧
  ∀ i, holdsAlone s i k →
    (¬rises → reached → endedAtTarget s t i k) ∧
    (rises → ¬reached → endedHolding .overtemp s t i k) ∧
    (rises → reached → endedAtTarget s t i k ∨ endedHolding .overtemp s t i k)

/-- A slot that is not checked keeps its record and its frames until the revocation. -/
theorem targetsChecked_other {scan : Scan} {s : State} {k : SlotId} (not : k ∉ checkedSlots scan s) :
    grantOf (targetsChecked scan s) k = grantOf s k ∧
      ∀ i, heldSlot s i = some k → frameOf (targetsChecked scan s) i = frameOf s i := by
  refine ⟨grantOf_endAtTarget_other _ _ k not, fun i slot => frameOf_endAtTarget_other _ _ i ?_⟩
  intro j other mem
  have same : heldSlot s i = some j := other
  rw [slot] at same
  exact not (Option.some.inj same ▸ mem)

theorem targetsChecked_reached {scan : Scan} {s : State} {i : FrameId} {k : SlotId}
    (mem : k ∈ checkedSlots scan s) (running : (grantOf s k).state = .running)
    (alone : holdsAlone s i k) : endedAtTarget s (targetsChecked scan s) i k :=
  endAtTarget_reached (s.setSafety { s.safety with overtemp := overtempAfter scan s })
    (checkedSlots scan s) i k mem running alone

theorem heldSlot_targetsChecked {scan : Scan} {s : State} {i : FrameId} {k : SlotId}
    (held : heldSlot (targetsChecked scan s) i = some k) : heldSlot s i = some k := by
  rw [targetsChecked] at held
  have was := heldSlot_endAtTarget held
  exact was

theorem targetsChecked_stopped {scan : Scan} {s : State} {k : SlotId} (mem : k ∈ checkedSlots scan s) :
    (grantOf (targetsChecked scan s) k).state ≠ .running := by
  rw [targetsChecked]
  exact endAtTarget_stopped mem

/-- R16, R120: the revocation reaches no source that the check has stopped, nor its request. -/
theorem revoked_after_check {scan : Scan} {s : State} {i : FrameId} {k : SlotId}
    (mem : k ∈ checkedSlots scan s) (running : (grantOf s k).state = .running)
    (alone : holdsAlone s i k) :
    endedAtTarget s (revokeAll .overtemp (targetsChecked scan s)) i k := by
  have stopped : (grantOf (targetsChecked scan s) k).state ≠ .running :=
    targetsChecked_stopped mem
  refine (targetsChecked_reached mem running alone).congr ?_ (grantOf_revokeAll_other _ _ k stopped)
  refine frameOf_revokeAll_other _ _ i fun j slot => ?_
  have was : heldSlot s i = some j := heldSlot_targetsChecked slot
  rw [alone.1] at was
  exact Option.some.inj was ▸ stopped

/-- R120: the revocation of a source that the check has not reached. -/
theorem revoked_unchecked {scan : Scan} {s : State} {i : FrameId} {k : SlotId}
    (not : k ∉ checkedSlots scan s) (running : (grantOf s k).state = .running)
    (alone : holdsAlone s i k) :
    endedHolding .overtemp s (revokeAll .overtemp (targetsChecked scan s)) i k := by
  obtain ⟨grant, frames⟩ := targetsChecked_other not
  have record : recordOf (targetsChecked scan s) k = recordOf s k :=
    (endAtTarget_moved (s.setSafety { s.safety with overtemp := overtempAfter scan s })
      (checkedSlots scan s)).recordOf_eq k
  have slot : heldSlot (targetsChecked scan s) i = some k := by
    rw [heldSlot_of_frame s _ i (frames i alone.1), alone.1]
  have stillAlone : holdsAlone (targetsChecked scan s) i k :=
    ⟨slot, fun j other => alone.2 j (heldSlot_targetsChecked other)⟩
  refine (revokeAll_endedHolding .overtemp ?_ stillAlone).congr_before (frames i alone.1) record grant
  rw [grant, running]

theorem neighboursTake_completion {scan : Scan} {s : State} (layers : s.model.state ≠ .none) {k : SlotId}
    (running : (grantOf s k).state = .running) :
    completionTaken (overtempRises scan s = true) (atTarget s k) s (neighboursTake scan s) k := by
  have checked := mem_checkedSlots (scan := scan) running
  rw [neighboursTake_of_layers scan layers]
  cases rises : overtempRises scan s with
  | false =>
    rw [if_neg Bool.false_ne_true]
    refine ⟨fun _ short => targetsChecked_other fun mem => short (checked.mp mem).1,
      fun _ reached none => ?_, fun i alone => ⟨fun _ reached => ?_, fun up => (nomatch up),
        fun up => (nomatch up)⟩⟩
    · exact grantOf_endAtTarget_unheld (checked.mpr ⟨reached, .inl rises⟩) running none
    · exact targetsChecked_reached (checked.mpr ⟨reached, .inl rises⟩) running alone
  | true =>
    rw [if_pos rfl]
    refine ⟨fun up => absurd rfl up, fun up => absurd rfl up, fun i alone => ⟨fun up => absurd rfl up,
      fun _ short => revoked_unchecked (fun mem => short (checked.mp mem).1) running alone,
      fun _ _ => ?_⟩⟩
    by_cases mem : k ∈ checkedSlots scan s
    · exact .inl (revoked_after_check mem running alone)
    · exact .inr (revoked_unchecked mem running alone)

/-- R17: what a completion in NONE does to a RUNNING source and its request. -/
theorem neighboursTake_modelNone (scan : Scan) {s : State} (none : s.model.state = .none) {i : FrameId}
    {k : SlotId} (running : (grantOf s k).state = .running) (alone : holdsAlone s i k) :
    endedHolding .modelNone s (neighboursTake scan s) i k := by
  rw [neighboursTake_of_none scan none]
  exact revokeAll_endedHolding .modelNone running alone

section Applied
variable {scan : Scan} {s : State}

/-- The sources and requests as the completion finds them are those of the state before. -/
theorem scanApplied_modelNone (none : (applyScan scan s).model.state = .none) {i : FrameId} {k : SlotId}
    (running : (grantOf s k).state = .running) (alone : holdsAlone s i k) :
    endedHolding .modelNone s (scanApplied scan s) i k := by
  have taken : endedHolding .modelNone s (neighboursTake scan (applyScan scan s)) i k :=
    neighboursTake_modelNone (s := applyScan scan s) scan none running alone
  exact taken.congr (scanApplied_frame scan s i) (scanApplied_grant scan s k)

theorem completionTaken.congr {rises reached : Prop} {t u : State} {k : SlotId}
    (h : completionTaken rises reached s t k) (frames : ∀ i, frameOf u i = frameOf t i)
    (grant : grantOf u k = grantOf t k) : completionTaken rises reached s u k := by
  obtain ⟨stands, ends, held⟩ := h
  refine ⟨fun calm short => ?_, fun calm reach none => grant.trans (ends calm reach none),
    fun i alone => ?_⟩
  · obtain ⟨same, others⟩ := stands calm short
    exact ⟨grant.trans same, fun i slot => (frames i).trans (others i slot)⟩
  · obtain ⟨target, heat, either⟩ := held i alone
    exact ⟨fun calm reach => (target calm reach).congr (frames i) grant,
      fun up short => (heat up short).congr (frames i) grant,
      fun up reach => (either up reach).imp (·.congr (frames i) grant) (·.congr (frames i) grant)⟩

theorem scanApplied_completion (layers : (applyScan scan s).model.state ≠ .none) {k : SlotId}
    (running : (grantOf s k).state = .running) : completionTaken
      (overtempRises scan (applyScan scan s) = true) (atTarget (applyScan scan s) k) s
      (scanApplied scan s) k := by
  have taken : completionTaken (overtempRises scan (applyScan scan s) = true)
      (atTarget (applyScan scan s) k) s (neighboursTake scan (applyScan scan s)) k :=
    neighboursTake_completion (s := applyScan scan s) layers running
  exact taken.congr (scanApplied_frame scan s) (scanApplied_grant scan s k)

/-- R119: overtemperature becomes ACTIVE at the completion. -/
theorem overtempRises_iff (layers : (applyScan scan s).model.state ≠ .none) :
    overtempRises scan (applyScan scan s) = true ↔
      s.safety.overtemp = false ∧ (scanApplied scan s).safety.overtemp = true := by
  have safety : (applyScan scan s).safety = s.safety := rfl
  rw [scanApplied_safety, if_neg layers, overtempRises, safety, Bool.and_eq_true, Bool.not_eq_true',
    and_comm]

end Applied

/-- R7, R10, R11: the model that the last read of a scan forms. -/
theorem scanApplied_formed (scan : Scan) (s : State) : ∃ valid,
    valid = validProbes (scanApplied scan s).scanner.probes (Config.sharedLayerRank s.openDraws) ∧
      (scanApplied scan s).model = completedModel s.model scan.inversionMargin valid := by
  refine ⟨_, rfl, ?_⟩
  rw [scanApplied_model, scanApplied_scanner]
  rfl

theorem layersApart_scanApplied {s : State} (apart : layersApart s.scanner.probes) (scan : Scan) :
    layersApart (scanApplied scan s).scanner.probes := by
  rw [scanApplied_scanner]
  intro a b
  rw [updatedProbes_layer, updatedProbes_layer]
  exact apart a b

/-- R17, R49, R50: what a completion that forms a model does to the sources. -/
theorem scanApplied_sources {scan : Scan} {s : State} {m : LayerModel}
    (formed : (scanApplied scan s).model = m) :
    (m.state = .none → (∀ k, (grantOf (scanApplied scan s) k).state ≠ .running) ∧
      ∀ k i, (grantOf s k).state = .running → holdsAlone s i k →
        endedHolding .modelNone s (scanApplied scan s) i k) ∧
    (m.state ≠ .none → ∀ k, (grantOf s k).state = .running → completionTaken
      (s.safety.overtemp = false ∧ (scanApplied scan s).safety.overtemp = true)
      ((grantOf s k).target ≤ m.layers[(recordOf s k).coilTop]) s (scanApplied scan s) k) := by
  subst formed
  refine ⟨fun none => ⟨(scanApplied_none none).2, fun k i running alone => ?_⟩,
    fun layers k running => ?_⟩
  · rw [scanApplied_model] at none
    exact scanApplied_modelNone none running alone
  · rw [scanApplied_model] at layers
    rw [← overtempRises_iff layers, scanApplied_model]
    exact scanApplied_completion layers running

/-- Settles O23: the model is formed of the valid probes, and then the neighbours take it. -/
theorem completionFormsModel : Obligations.CompletionFormsModel := by
  intro s scan n c r inFlight reads ends steady apart
  obtain ⟨model, scanner, safety, -⟩ := scanCompleted_blocks (scanRead scan n r) steady
  obtain ⟨valid, isValid, formed⟩ := scanApplied_formed (scanRead scan n r) s
  have probes := layersApart_scanApplied (scan := scanRead scan n r) apart
  have scans := scanApplied_scanner (scanRead scan n r) s
  have inversion := completedModel_inversion s.model scan.inversionMargin valid
  refine ⟨_, valid, exec_lastRead inFlight reads ends, ?_, fun i v => ?_, ?_⟩
  · rw [isValid]
    exact validProbes_ascending probes _
  · rw [isValid, scanner]
    exact mem_validProbes _ _ i v
  · rw [model, scanner, formed]
    refine ⟨rfl, rfl, rfl, inversion, by rw [scans], by rw [scans], fun completed => ?_⟩
    rw [scanCompleted_later _ completed]
    obtain ⟨ended, taken⟩ := scanApplied_sources formed
    exact ⟨scanApplied_planner _ s, scanApplied_settingsKept _ s,
      fun k still => grantOf_scanApplied_other _ s k still,
      fun i still => frameOf_scanApplied_other _ s i still, ended, taken⟩

end Sys2Proof.Machine
end

section
/-! SUPPORT. The input lines (R122 to R127): what a pin change and a settle that runs out leave, and the
grants and alerts of a line that becomes active. -/

namespace Sys2Proof.Machine

/-! ## One line set -/

theorem setLine_standing (s : State) (l : Line) : setLine s l (lineOf s l) = s := by
  cases l <;> rfl

theorem setLine_setLine (s : State) (l : Line) (x y : InputLine) :
    setLine (setLine s l x) l y = setLine s l y := by
  cases l <;> rfl

section Set
variable (s : State) (l : Line) (x : InputLine)

theorem setLine_scanner : (setLine s l x).scanner = s.scanner := by rw [setLine_eq]; rfl
theorem setLine_model : (setLine s l x).model = s.model := by rw [setLine_eq]; rfl
theorem setLine_table : (setLine s l x).table = s.table := by rw [setLine_eq]; rfl
theorem setLine_planner : (setLine s l x).planner = s.planner := by rw [setLine_eq]; rfl
theorem setLine_overtemp : (setLine s l x).safety.overtemp = s.safety.overtemp := by cases l <;> rfl
theorem setLine_cycle : (setLine s l x).cycle = s.cycle := by rw [setLine_eq]; rfl
theorem setLine_alerts : (setLine s l x).alerts = s.alerts := by rw [setLine_eq]; rfl
theorem setLine_ports : (setLine s l x).ports = s.ports := by rw [setLine_eq]; rfl
theorem setLine_wires : (setLine s l x).wires = s.wires := by rw [setLine_eq]; rfl

end Set

/-! ## A level taken -/

/-- R123: from `s` to `t` a line has taken the value `x`, and grants may have ended. -/
structure LineTaken (s t : State) (l : Line) (x : InputLine) : Prop where
  line : lineOf t l = x
  others : ∀ m, m ≠ l → lineOf t m = lineOf s m
  overtemp : t.safety.overtemp = s.safety.overtemp
  table : lineActive t l = false → t.table = s.table
  scanner : t.scanner = s.scanner
  model : t.model = s.model
  planner : t.planner = s.planner
  settings : settingsKept s t
  pool : poolKept s t

theorem lineOf_moved {s t : State} (h : SourcesMoved s t) (l : Line) : lineOf t l = lineOf s l := by
  cases l <;> simp only [lineOf, h.safety_eq]

/-- R126, R127: a line that is not active afterwards ends no grant. -/
theorem lineEffects_inactive {before : State} {l : Line} {s : State} (h : lineActive s l = false) :
    lineEffects before l s = s := by
  simp [lineEffects, h]

theorem poolKept_of_pool {s t : State} (h : t.pool = s.pool) : poolKept s t := by
  simp only [poolKept, frameOf, h, implies_true, and_self]

/-- A line set, then the sources and the alerts moved. -/
theorem LineTaken.of_moved {s u : State} {l : Line} {x : InputLine} {alerts : AlertRouter}
    (moved : SourcesMoved (setLine s l x) u) (kept : poolKept (setLine s l x) u)
    (idle : lineActive (setLine s l x) l = false → u = setLine s l x)
    (modes : alerts.modes = s.alerts.modes) : LineTaken s (u.setAlerts alerts) l x := by
  have lines (m : Line) : lineOf (u.setAlerts alerts) m = lineOf (setLine s l x) m := lineOf_moved moved m
  have active : lineActive (u.setAlerts alerts) l = lineActive (setLine s l x) l := moved.lineActive_eq l
  have pool : poolKept s u := (poolKept_of_pool (setLine_pool s l x)).trans kept
  exact {
    line := (lines l).trans (lineOf_setLine_self s l x)
    others := fun m other => (lines m).trans (lineOf_setLine_other s l m x other)
    overtemp := (congrArg SafetyMonitor.overtemp moved.safety_eq).trans (setLine_overtemp s l x)
    table := fun calm => by
      rw [active] at calm
      exact (congrArg State.table (idle calm)).trans (setLine_table s l x)
    scanner := moved.scanner_eq.trans (setLine_scanner s l x)
    model := moved.model_eq.trans (setLine_model s l x)
    planner := moved.planner_eq.trans (setLine_planner s l x)
    settings := ⟨moved.part_eq.trans (setLine_part s l x), moved.cycle_eq.trans (setLine_cycle s l x),
      moved.ports_eq.trans (setLine_ports s l x), moved.wires_eq.trans (setLine_wires s l x),
      moved.store_eq.trans (setLine_store s l x),
      moved.2.1.trans (congrArg SourceTable.records (setLine_table s l x)), modes,
      pool.1, pool.2.1, pool.2.2.1⟩
    pool := pool }

/-- R123: a line in `s` that has been set to `y` takes a level. -/
def levelTaken (l : Line) (level : Level) (s : State) (y : InputLine) : State :=
  setLine s l { y with settled := level, settling := none }

/-- R126, R127: the grants that end as the line takes the level. -/
def grantsTaken (l : Line) (level : Level) (s : State) (y : InputLine) : State :=
  lineEffects (setLine s l y) l (levelTaken l level s y)

theorem takeLevel_setLine (l : Line) (level : Level) (s : State) (y : InputLine) :
    takeLevel l level (setLine s l y) = followConditions (setLine s l y) (grantsTaken l level s y) := by
  have same : setLine (setLine s l y) l
      { lineOf (setLine s l y) l with settled := level, settling := none } = levelTaken l level s y := by
    rw [setLine_setLine, lineOf_setLine_self]
    rfl
  rw [takeLevel, same]
  rfl

theorem grantsTaken_moved (l : Line) (level : Level) (s : State) (y : InputLine) :
    SourcesMoved (levelTaken l level s y) (grantsTaken l level s y) := lineEffects_moved _ l _

/-- R123: a line that takes a level, and what follows. -/
theorem takeLevel_lineTaken (l : Line) (level : Level) (s : State) (y : InputLine) :
    LineTaken s (takeLevel l level (setLine s l y)) l
      { y with settled := level, settling := none } := by
  have moved := grantsTaken_moved l level s y
  rw [takeLevel_setLine, followConditions_eq]
  refine .of_moved moved (lineEffects_kept _ l _) lineEffects_inactive ?_
  rw [followConditions_modes, moved.alerts_eq]
  exact congrArg AlertRouter.modes (setLine_alerts s l _)

/-! ## The two commands -/

section Commands
variable {l : Line} {level : Level} {s : State}

theorem exec_inputPinChange_same (same : level = (lineOf s l).pin) :
    exec (.inputPinChange l level) s = .next s := if_pos same

theorem exec_inputPinChange_halted (changes : level ≠ (lineOf s l).pin) (halted : isRunning s = false) :
    exec (.inputPinChange l level) s = .next (setLine s l { lineOf s l with pin := level }) :=
  (if_neg changes).trans (if_neg (by simp [halted]))

theorem exec_inputPinChange (changes : level ≠ (lineOf s l).pin) (running : isRunning s = true) :
    exec (.inputPinChange l level) s = .next (pinChanged l level s) :=
  (if_neg changes).trans (if_pos running)

/-- R123: a pin back at the settled level ends any settle. -/
theorem pinChanged_back (back : level = (lineOf s l).settled) :
    pinChanged l level s = setLine s l { lineOf s l with pin := level, settling := none } := by
  rw [pinChanged]
  dsimp only
  cases settling : (lineOf s l).settling with
  | some x => exact if_pos back
  | none =>
    exact if_pos back

theorem pinChanged_begins (changes : level ≠ (lineOf s l).settled) (none : (lineOf s l).settling = none)
    (time : 1 ≤ (lineOf s l).settleTime) : pinChanged l level s = setLine s l { lineOf s l with
      pin := level, settling := some { target := level, time := (lineOf s l).settleTime } } := by
  rw [pinChanged]
  dsimp only
  rw [none]
  exact (if_neg changes).trans (if_neg (by omega))

theorem pinChanged_at_once (changes : level ≠ (lineOf s l).settled)
    (none : (lineOf s l).settling = none) (time : (lineOf s l).settleTime = 0) :
    pinChanged l level s = takeLevel l level (setLine s l { lineOf s l with pin := level }) := by
  rw [pinChanged]
  dsimp only
  rw [none]
  exact (if_neg changes).trans (if_pos time)

theorem exec_settleExpiry_none (none : (lineOf s l).settling = none) :
    exec (.settleExpiry l) s = .next s := by
  simp only [exec, execSettleExpiry, none]

theorem exec_settleExpiry {x : Settle} (settling : (lineOf s l).settling = some x) :
    exec (.settleExpiry l) s = .next (takeLevel l x.target s) := by
  simp only [exec, execSettleExpiry, settling]

end Commands

/-- Settles O38: each branch of a pin change, and a settle that runs out. -/
theorem inputLinesSettle : Obligations.InputLinesSettle := by
  intro l level s
  refine ⟨exec_inputPinChange_same, fun changes => ⟨exec_inputPinChange_halted changes,
    fun running back => ?_, fun running away none time => ?_, fun running away none time => ?_⟩,
    exec_settleExpiry_none, fun x settling => ⟨_, exec_settleExpiry settling, ?_⟩⟩
  · rw [exec_inputPinChange changes running, pinChanged_back back]
  · rw [exec_inputPinChange changes running, pinChanged_begins away none time]
  · have taken := takeLevel_lineTaken l level s { lineOf s l with pin := level }
    rw [exec_inputPinChange changes running, pinChanged_at_once away none time]
    generalize takeLevel l level (setLine s l { lineOf s l with pin := level }) = t at *
    refine ⟨t, rfl, ?_, taken.others, taken.table, taken.overtemp, taken.scanner, taken.model,
      taken.planner, taken.settings, taken.pool⟩
    rw [taken.line, ← none]
  · have taken := takeLevel_lineTaken l x.target s (lineOf s l)
    rw [setLine_standing] at taken
    exact ⟨taken.line, taken.others, taken.overtemp, taken.table, taken.scanner, taken.model,
      taken.planner, taken.settings, taken.pool⟩

/-! ## A line that becomes active -/

/-- R138: the kind whose condition is a line's active state. -/
def lineKind : Line → AlertKind
  | .x0 => .inputX0
  | .x1 => .inputX1

theorem levelCapable_lineKind (l : Line) : levelCapable (lineKind l) = true := by cases l <;> rfl

theorem condition_lineKind (s : State) (l : Line) : condition s (lineKind l) = lineActive s l := by
  cases l <;> rfl

/-- R50, R126, R127: the slots whose grants end as a line becomes active. -/
def lineHits (s : State) : Line → SlotId → Bool
  | .x0, k => heldBackByX0 s k
  | .x1, _ => true

/-- R50: the cause with which they end. -/
def lineCause : Line → EndCause
  | .x0 => .paidBlock
  | .x1 => .serviceStop

theorem lineBecameActive_eq (l : Line) (s : State) : lineBecameActive l s =
    endGrants (lineCause l) s ((runningSlots s).filter (lineHits s l)) := by
  cases l with
  | x0 => rfl
  | x1 =>
    have all : (runningSlots s).filter (lineHits s .x1) = runningSlots s :=
      List.filter_eq_self.mpr fun _ _ => rfl
    rw [all]
    rfl

section Active
variable {l : Line} {level : Level} {s : State} {y : InputLine}

theorem lineActive_levelTaken (running : isRunning s = true) (active : level = y.activeLevel) :
    lineActive (levelTaken l level s y) l = true := by
  rw [levelTaken, lineActive_setLine, running]
  simp [active]

theorem grantsTaken_active (running : isRunning s = true) (calm : lineActive (setLine s l y) l = false)
    (active : level = y.activeLevel) : grantsTaken l level s y =
      endGrants (lineCause l) (levelTaken l level s y)
        ((runningSlots (levelTaken l level s y)).filter (lineHits (levelTaken l level s y) l)) := by
  rw [grantsTaken, lineEffects, calm, lineActive_levelTaken running active]
  exact lineBecameActive_eq l _

theorem recordOf_levelTaken (k : SlotId) : recordOf (levelTaken l level s y) k = recordOf s k := by
  simp only [recordOf, levelTaken, setLine_table]

theorem grantOf_levelTaken (k : SlotId) : grantOf (levelTaken l level s y) k = grantOf s k := by
  simp only [grantOf, levelTaken, setLine_table]

theorem frameOf_levelTaken (i : FrameId) : frameOf (levelTaken l level s y) i = frameOf s i := by
  simp only [frameOf, levelTaken, setLine_pool]

theorem heldFor_levelTaken (k : SlotId) : heldFor (levelTaken l level s y) k = heldFor s k :=
  heldFor_of_heldSlot s _ (fun i => heldSlot_of_frame s _ i (frameOf_levelTaken i)) k

/-- R127: the sources that an active line stops. -/
theorem lineHits_levelTaken (running : isRunning s = true) (active : level = y.activeLevel) (k : SlotId) :
    lineHits (levelTaken l level s y) l k = true ↔ l = .x1 ∨
      ((recordOf s k).sourceClass = .paid ∧ blockObey s.store.image k = true) := by
  have now := lineActive_levelTaken (l := l) running active
  cases l with
  | x1 => simp [lineHits]
  | x0 =>
    have store : (levelTaken .x0 level s y).store = s.store := setLine_store s .x0 _
    simp only [lineHits, heldBackByX0, recordOf_levelTaken, now, store]
    simp

theorem mem_lineHits (running : isRunning s = true) (active : level = y.activeLevel) (k : SlotId) :
    k ∈ (runningSlots (levelTaken l level s y)).filter (lineHits (levelTaken l level s y) l) ↔
      (grantOf s k).state = .running ∧ (l = .x1 ∨
        ((recordOf s k).sourceClass = .paid ∧ blockObey s.store.image k = true)) := by
  rw [List.mem_filter, lineHits_levelTaken running active, mem_runningSlots, isGrantRunning_iff,
    grantOf_levelTaken]

theorem lineCause_eq (l : Line) : lineCause l = if l = .x1 then .serviceStop else .paidBlock := by
  cases l <;> rfl

/-- R47, R126, R127: the grants and requests once a line has become active. -/
theorem grantsTaken_ends (running : isRunning s = true) (calm : lineActive (setLine s l y) l = false)
    (active : level = y.activeLevel) (k : SlotId) :
    ((grantOf s k).state = .running → (l = .x1 ∨
        ((recordOf s k).sourceClass = .paid ∧ blockObey s.store.image k = true)) →
      grantOf (grantsTaken l level s y) k =
        grantEnded (recordOf s k).minRest (heldFor s k).isSome (grantOf s k) ∧
      ∀ i, heldFor s k = some i →
        (frameOf (grantsTaken l level s y) i).state = (frameOf s i).state ∧
        (frameOf (grantsTaken l level s y) i).result.endCause =
          (if l = .x1 then .serviceStop else .paidBlock)) ∧
    (¬((grantOf s k).state = .running ∧ (l = .x1 ∨
        ((recordOf s k).sourceClass = .paid ∧ blockObey s.store.image k = true))) →
      grantOf (grantsTaken l level s y) k = grantOf s k) := by
  have mem := mem_lineHits (l := l) running active k
  have kept (i : FrameId) := ((lineEffects_kept (setLine s l y) l (levelTaken l level s y)).2.2.2.2 i).1
  refine ⟨fun runs hit => ?_, fun spared => ?_⟩
  · have ends := endGrants_ends (lineCause l) (mem.mpr ⟨runs, hit⟩)
      (s := levelTaken l level s y) (by rw [grantOf_levelTaken, runs])
    rw [← grantsTaken_active running calm active, recordOf_levelTaken, heldFor_levelTaken,
      grantOf_levelTaken] at ends
    refine ⟨ends.1, fun i held => ⟨?_, ?_⟩⟩
    · exact (kept i).trans (congrArg Frame.state (frameOf_levelTaken i))
    · rw [ends.2 i held, lineCause_eq]
  · rw [grantsTaken_active running calm active,
      (endGrants_stands _ fun stopped => spared (mem.mp stopped)).1, grantOf_levelTaken]

theorem modeOf_grantsTaken (k : AlertKind) : modeOf (grantsTaken l level s y) k = modeOf s k := by
  rw [modeOf, (grantsTaken_moved l level s y).alerts_eq]
  simp only [modeOf, levelTaken, setLine_alerts]

theorem awaitingOf_grantsTaken (q : PortId) : awaitingOf (grantsTaken l level s y) q = awaitingOf s q := by
  rw [awaitingOf, (grantsTaken_moved l level s y).alerts_eq]
  simp only [awaitingOf, levelTaken, setLine_alerts]

theorem subscribed_grantsTaken (q : PortId) (k : AlertKind) :
    subscribed (grantsTaken l level s y) q k = subscribed s q k := by
  rw [subscribed, (grantsTaken_moved l level s y).store_eq]
  simp only [subscribed, levelTaken, setLine_store]

/-- R142, R143: the line's kind once it has become active. -/
theorem takeLevel_alerted (running : isRunning s = true) (calm : lineActive (setLine s l y) l = false)
    (active : level = y.activeLevel) (q : PortId) (mask : subscribed s q (lineKind l) = true) :
    (modeOf s (lineKind l) = .edge →
      lineKind l ∈ pendingOf (takeLevel l level (setLine s l y)) q) ∧
    (modeOf s (lineKind l) = .level →
      (lineKind l ∈ pendingOf (takeLevel l level (setLine s l y)) q ↔
        lineKind l ∉ awaitingOf s q)) := by
  have capable := levelCapable_lineKind l
  have before : condition (setLine s l y) (lineKind l) = false := by rw [condition_lineKind, calm]
  have now : condition (grantsTaken l level s y) (lineKind l) = true := by
    rw [condition_lineKind, (grantsTaken_moved l level s y).lineActive_eq,
      lineActive_levelTaken running active]
  have subscriber : subscribed (grantsTaken l level s y) q (lineKind l) = true := by
    rw [subscribed_grantsTaken, mask]
  rw [takeLevel_setLine]
  refine ⟨fun edge => ?_, fun level => ?_⟩
  · refine (mem_pendingOf_followConditions_edge _ _ q _ capable ?_).mpr (.inr ⟨before, now, subscriber⟩)
    rw [modeOf_grantsTaken, edge]
  · rw [mem_pendingOf_followConditions_level _ _ q _ capable (by rw [modeOf_grantsTaken, level]),
      levelPending_iff, awaitingOf_grantsTaken]
    exact ⟨fun pends => pends.2.2, fun free => ⟨subscriber, now, free⟩⟩

end Active

/-- R123: the two commands at which a line takes its active level. -/
theorem exec_takesActiveLevel {l : Line} {c : Instr} {s : State} (running : isRunning s = true)
    (calm : lineActive s l = false) (takes : takesActiveLevel s l c) :
    ∃ y : InputLine, y.activeLevel = (lineOf s l).activeLevel ∧ lineActive (setLine s l y) l = false ∧
      exec c s = .next (takeLevel l y.activeLevel (setLine s l y)) := by
  rcases takes with ⟨rfl, x, settling, target⟩ | ⟨rfl, changes, none, time⟩
  · refine ⟨lineOf s l, rfl, ?_, ?_⟩
    · rwa [setLine_standing]
    · rw [exec_settleExpiry settling, setLine_standing, target]
  · refine ⟨{ lineOf s l with pin := (lineOf s l).activeLevel }, rfl, ?_, ?_⟩
    · rw [lineActive_setLine]
      exact calm
    · have away : (lineOf s l).activeLevel ≠ (lineOf s l).settled := by
        intro same
        rw [lineActive, running, same] at calm
        simp at calm
      rw [exec_inputPinChange (Ne.symm changes) running, pinChanged_at_once away none time]

/-- Settles O39, by the grants that end and the line's condition. -/
theorem linesEndGrants : Obligations.LinesEndGrants := by
  intro l c s running calm takes
  obtain ⟨y, level, still, eq⟩ := exec_takesActiveLevel running calm takes
  have taken := takeLevel_lineTaken l y.activeLevel s y
  have frames (i : FrameId) : frameOf (takeLevel l y.activeLevel (setLine s l y)) i =
      frameOf (grantsTaken l y.activeLevel s y) i := by
    rw [takeLevel_setLine]
    rfl
  have grants (k : SlotId) : grantOf (takeLevel l y.activeLevel (setLine s l y)) k =
      grantOf (grantsTaken l y.activeLevel s y) k := by
    rw [takeLevel_setLine]
    rfl
  have active : lineActive (takeLevel l y.activeLevel (setLine s l y)) l = true := by
    have runs : isRunning (takeLevel l y.activeLevel (setLine s l y)) = true := by
      rw [isRunning, taken.settings.1]
      exact running
    rw [lineActive, runs, taken.line]
    simp
  have alerted (q : PortId) := takeLevel_alerted (l := l) running still rfl q
  refine ⟨_, eq, active, taken.settings.2.2.2.2.2.1, ?_, fun k => ?_⟩
  · cases l <;> exact alerted
  · have ends := grantsTaken_ends running still rfl k
    simp only [frames, grants]
    exact ends

end Sys2Proof.Machine
end

section
/-! SUPPORT. A plan that has begun (R95 to R109): what it holds depends on the blocks it reads alone, and
the beginnings of a full plan and of a late one. -/

namespace Sys2Proof.Machine

/-! ## What a plan reads -/

/-- Two states that a plan, begun in either, cannot tell apart. -/
structure PlansAlike (s t : State) : Prop where
  part : t.part = s.part
  model : t.model = s.model
  table : t.table = s.table
  pool : t.pool = s.pool
  snapshot : t.planner.snapshot = s.planner.snapshot
  safety : t.safety = s.safety
  active : ∀ p, (portOf t p).active = (portOf s p).active
  image : t.store.image = s.store.image

theorem PlansAlike.planHolds {s t : State} (same : PlansAlike s t) {kind : PlanKind} {plan : Plan}
    (h : planHolds kind s plan) : Machine.planHolds kind t plan := by
  obtain ⟨part, model, table, pool, snapshot, safety, port, image⟩ := same
  have frame (i : FrameId) : frameOf t i = frameOf s i := by simp only [frameOf, pool]
  have record (k : SlotId) : recordOf t k = recordOf s k := by simp only [recordOf, table]
  have grant (k : SlotId) : grantOf t k = grantOf s k := by simp only [grantOf, table]
  have isHeldSame (i : FrameId) : isHeld t i = isHeld s i := by simp only [isHeld, frame]
  have held (k : SlotId) : heldFor t k = heldFor s k :=
    heldFor_of_heldSlot s t (fun i => heldSlot_of_frame s t i (frame i)) k
  have line (l : Line) : lineActive t l = lineActive s l := by
    cases l <;> simp only [lineActive, isRunning, lineOf, part, safety]
  have figures : presented t = presented s := by
    simp only [presented, snapshot, image, isHeldSame, frame]
  have blocked : isBlocked t ↔ isBlocked s := by
    simp only [isBlocked, safety, line, model, snapshot]
  have target (k : SlotId) (i : FrameId) : plannedTarget t k i = plannedTarget s k i := by
    simp only [plannedTarget, record, frame, snapshot, image]
  have below (k : SlotId) : belowTarget t k ↔ belowTarget s k := by
    simp only [belowTarget, held, snapshot, record, target]
  have used (c : SourceClass) (k : SlotId) : usedWithRequest t c k ↔ usedWithRequest s c k := by
    simp only [usedWithRequest, record, held]
  have minimum (k : SlotId) : runsUnderMinimum t kind k ↔ runsUnderMinimum s kind k := by
    simp only [runsUnderMinimum, grant, record]
  have active (k : SlotId) : onActivePort t k ↔ onActivePort s k := by
    simp only [onActivePort, record, port]
  have clear (k : SlotId) : clearOfX0 t k ↔ clearOfX0 s k := by
    simp only [clearOfX0, image, line]
  have free (k : SlotId) : grantsFree t kind k ↔ grantsFree s kind k := by
    simp only [grantsFree, used, minimum, grant, active, below]
  have candidate (k : SlotId) : isCandidate t kind k ↔ isCandidate s kind k := by
    simp only [isCandidate, used, grant, record, active, clear, figures, below, snapshot, image]
  have before (k j : SlotId) : comesBefore t k j ↔ comesBefore s k j := by
    simp only [comesBefore, image, grant]
  have need : needAtStart t kind = needAtStart s kind := by
    simp only [needAtStart, figures, grant, record]
  have formed (e : GrantEntry) : entryFormed t e ↔ entryFormed s e := by
    simp only [entryFormed, held, target, grant, image]
  have powers (n : Nat) (entries : List GrantEntry) :
      powersAllotted t n entries ↔ powersAllotted s n entries := by
    simp only [powersAllotted, record]
  simpa only [Machine.planHolds, grantsChosen, figures, blocked, need, formed, free, record, used, minimum,
    before, candidate, powers, image, grant] using h

/-! ## The beginning of a plan -/

theorem PlansAlike.setPlanner (s : State) {x : Planner} (snapshot : x.snapshot = s.planner.snapshot) :
    PlansAlike s (s.setPlanner x) := ⟨rfl, rfl, rfl, rfl, snapshot, rfl, fun _ => rfl, rfl⟩

/-- R92, R95: a full plan that begins. -/
theorem beginFullPlan_holds {s : State} (ranks : RanksPermuted s) (range : imageInRange s.store.image) :
    Machine.planHolds .full (beginFullPlan s) (formPlan .full s) :=
  (PlansAlike.setPlanner s rfl).planHolds (formPlan_holds_inRange .full s ranks range)

/-- R108: the late plan that a marked planner begins. -/
theorem beginMarkedLatePlan_begins {s : State} (marked : s.planner.lateMark = true)
    (enough : s.planner.lateThreshold ≤ s.planner.secondsRemaining) : beginMarkedLatePlan s =
      s.setPlanner { s.planner with state := .planningLate (formPlan .late s), lateMark := false } := by
  rw [beginMarkedLatePlan, if_pos marked, if_pos enough]

theorem beginMarkedLatePlan_short {s : State}
    (short : s.planner.secondsRemaining < s.planner.lateThreshold) : beginMarkedLatePlan s =
      s.setPlanner { s.planner with lateMark := false } := by
  rw [beginMarkedLatePlan]
  split
  · rw [if_neg (Nat.not_le.mpr short)]
  · rename_i clear
    have none : s.planner.lateMark = false := by simpa using clear
    rw [← none]
    rfl

theorem markLate_holds {s : State} (ranks : RanksPermuted s) (range : imageInRange s.store.image) :
    Machine.planHolds .late s (formPlan .late (markLate s)) := by
  have back : PlansAlike (markLate s) s := ⟨rfl, rfl, rfl, rfl, rfl, rfl, fun _ => rfl, rfl⟩
  exact back.planHolds (formPlan_holds_inRange .late (markLate s) ranks range)

/-- R107, R108: an ask that finds the planner IDLE begins a late plan while seconds enough remain. -/
theorem latePlanAsk_begins {s : State} (idle : s.planner.state = .idle)
    (enough : s.planner.lateThreshold ≤ s.planner.secondsRemaining) : latePlanAsk s =
      s.setPlanner { s.planner with
        state := .planningLate (formPlan .late (markLate s)), lateMark := false } := by
  rw [latePlanAsk, idle]
  exact beginMarkedLatePlan_begins (s := markLate s) rfl enough

end Sys2Proof.Machine
end

section
/-! SUPPORT. The intake (R74 to R78): the checks of a frame, and what a frame refused, held or cancelled
leaves. -/

namespace Sys2Proof.Machine

/-! ## The take -/

section Take
variable {s : State} {p : PortId} {i : FrameId} {rest : List FrameId}

theorem exec_intakeTake (running : isRunning s = true) (outside : inSetup s = false)
    (idle : planInFlight s = false) (head : postList s p = i :: rest) :
    exec (.intakeTake p) s = .next (takeThenPlan p s) := by
  have guard : (isRunning s && !intakeHeldOff s && !(postList s p).isEmpty) = true := by
    simp [running, intakeHeldOff, outside, idle, head]
  simp only [exec, execIntakeTake, guard, if_true]

theorem settleHead_cons (head : postList s p = i :: rest) :
    settleHead p s = settleFrame (setPostList s p rest) p i := by
  rw [settleHead, head]

/-- R77: a head that asks for no late plan. -/
theorem takeThenPlan_silent (head : postList s p = i :: rest) (silent : asksForLatePlan s p i = false) :
    takeThenPlan p s = settleFrame (setPostList s p rest) p i := by
  have asks : headAsks s p = false := by
    rw [headAsks, head]
    exact silent
  rw [takeThenPlan, asks, settleHead_cons head]
  exact if_neg Bool.false_ne_true

/-- R75: the checks read nothing of the lists. -/
theorem intakeRefusal_setPostList (l : List FrameId) (r : Request) :
    intakeRefusal (setPostList s p l) p r = intakeRefusal s p r := rfl

end Take

/-! ## The checks -/

section Checks
variable {s : State} {p : PortId} {r : Request}

theorem requestKind_source (kind : r.kind = 1 ∨ r.kind = 2) : intakeRefusal s p r =
    sourceRefusal s p r.slot ∧ kindNamesSource (requestKind r.kind) = true := by
  rcases kind with kind | kind <;> simp [intakeRefusal, requestKind, kind, kindNamesSource]

theorem requestKind_bad (bad : r.kind = 0 ∨ 6 ≤ r.kind.toNat) : requestKind r.kind = none := by
  have differs (n : Byte) (some : 0 < n.toNat) (below : n.toNat < 6) : r.kind ≠ n := by
    rintro same
    rcases bad with zero | beyond
    · rw [← same, zero] at some
      exact absurd some (by decide)
    · rw [same] at beyond
      omega
  rw [requestKind, if_neg (differs 1 (by decide) (by decide)),
    if_neg (differs 2 (by decide) (by decide)), if_neg (differs 3 (by decide) (by decide)),
    if_neg (differs 4 (by decide) (by decide)), if_neg (differs 5 (by decide) (by decide))]

theorem sourceRefusal_owner (other : ∀ k : SlotId, r.slot.toNat = k.val → (recordOf s k).owner ≠ some p) :
    sourceRefusal s p r.slot = some .refusedOwner := by
  unfold sourceRefusal
  cases named : slotOf r.slot with
  | none => rfl
  | some k => exact if_pos (other k ((slotOf_eq _ _).mp named))

theorem sourceRefusal_named {k : SlotId} (named : r.slot.toNat = k.val)
    (owner : (recordOf s k).owner = some p) :
    sourceRefusal s p r.slot = if (heldFor s k).isSome then some .refusedBusy else none := by
  rw [sourceRefusal, (slotOf_eq _ _).mpr named]
  exact if_neg (not_not_intro owner)

theorem heldFor_none {k : SlotId} (free : ∀ j, heldSlot s j ≠ some k) : heldFor s k = none := by
  cases held : heldFor s k with
  | none => rfl
  | some j => exact absurd (heldSlot_of_heldFor s k j held) (free j)

theorem cancelTarget_none (unknown : ∀ j : FrameId, r.cancel.toNat = j.val → ownerOf s j = some p →
    isHeld s j = false) : cancelTarget s p r.cancel = none := by
  unfold cancelTarget
  cases named : frameIndex r.cancel with
  | none => rfl
  | some j =>
    refine if_neg fun both => ?_
    rw [unknown j ((frameIndex_eq _ _).mp named) both.1] at both
    exact Bool.false_ne_true both.2

theorem cancelTarget_of {j : FrameId} (named : r.cancel.toNat = j.val) (owner : ownerOf s j = some p)
    (held : isHeld s j = true) : cancelTarget s p r.cancel = some j := by
  rw [cancelTarget, (frameIndex_eq _ _).mpr named]
  exact if_pos ⟨owner, held⟩

end Checks

/-- R80: a frame that is refused. -/
theorem refused_eq {s : State} {p : PortId} {i : FrameId} {rest : List FrameId}
    (outcome : FrameOutcome) (owner : ownerOf s i = some p) :
    reportFrame outcome (setPostList s p rest) i = s.setPool { s.pool with
      frames := s.pool.frames.set i
        { frameOf s i with
          state := .reported
          result := { (frameOf s i).result with outcome := outcome
                                                endPeriod := s.planner.period } }
      postLists := s.pool.postLists.set p rest
      replyQueues := s.pool.replyQueues.set p (replyQueue s p ++ [i]) } := by
  have owner' : ownerOf (setPostList s p rest) i = some p := owner
  rw [reportFrame, owner']
  rfl

/-- Settles O17: the first check that fails, in each of the four cases. -/
theorem intakeRefusesByFirstFailingCheck : Obligations.IntakeRefusesByFirstFailingCheck := by
  intro p i rest outcome s running outside idle head owner checks
  have refusal : intakeRefusal s p (frameOf s i).request = some outcome := by
    rcases checks with ⟨bad, rfl⟩ | ⟨kind, other, rfl⟩ | ⟨kind, ⟨k, named, mine, j, held⟩, rfl⟩ |
      ⟨cancel, unknown, rfl⟩
    · rw [intakeRefusal, requestKind_bad bad]
    · rw [(requestKind_source kind).1, sourceRefusal_owner other]
    · have busy : (heldFor s k).isSome = true := (heldFor_isSome s k).mpr ⟨j, held⟩
      rw [(requestKind_source kind).1, sourceRefusal_named named mine, if_pos busy]
    · rw [intakeRefusal, cancel, cancelTarget_none unknown]
      rfl
  have silent : asksForLatePlan s p i = false := by simp [asksForLatePlan, refusal]
  have settles : settleFrame (setPostList s p rest) p i = reportFrame outcome (setPostList s p rest) i := by
    have same : intakeRefusal (setPostList s p rest) p (frameOf (setPostList s p rest) i).request =
        some outcome := refusal
    rw [settleFrame, same]
  rw [exec_intakeTake running outside idle head, takeThenPlan_silent head silent, settles,
    refused_eq outcome owner]

/-! ## A frame held -/

section Held
variable {s : State} {p : PortId} {i : FrameId} {rest : List FrameId}

/-- R77: a frame taken up from the head of the post list. -/
theorem holdFrame_setPostList (s : State) (p : PortId) (i : FrameId) (rest : List FrameId) :
    holdFrame (setPostList s p rest) i = s.setPool { s.pool with
      frames := s.pool.frames.set i
        { frameOf s i with state := .held 0, request := clampedRequest s (frameOf s i).request }
      postLists := s.pool.postLists.set p rest } := rfl

/-- R76: a RESERVE or COMFORT request, its span clamped. -/
theorem clampedRequest_amount {r : Request} (kind : r.kind = 3 ∨ r.kind = 4) : clampedRequest s r =
    { r with span := BitVec.ofNat 16 (min 1440 (max 1 r.span.toNat)) } := by
  rcases kind with kind | kind <;> simp [clampedRequest, requestKind, kind, clampedSpan, clampNat]

/-- R76: a HEAT request, its target clamped, or a STANDING one. -/
theorem clampedRequest_source {r q : Request} {k : SlotId} (named : r.slot.toNat = k.val)
    (kind : (r.kind = 1 ∧ q = { r with
        target := BitVec.ofInt 16 (min (max r.target.toInt (tCold s.store.image + 1))
          (recordOf s k).ceiling) }) ∨ r.kind = 2 ∧ q = r) : clampedRequest s r = q := by
  rcases kind with ⟨kind, rfl⟩ | ⟨kind, rfl⟩
  · simp [clampedRequest, requestKind, kind, clampedTarget, (slotOf_eq _ _).mpr named]
  · simp [clampedRequest, requestKind, kind]

theorem settleFrame_amount (kind : (frameOf s i).request.kind = 3 ∨ (frameOf s i).request.kind = 4) :
    settleFrame s p i = holdFrame s i ∧ asksForLatePlan s p i = false := by
  rcases kind with kind | kind <;>
    simp [settleFrame, asksForLatePlan, intakeRefusal, requestKind, kind, kindNamesSource]

theorem settleFrame_source {k : SlotId}
    (kind : (frameOf s i).request.kind = 1 ∨ (frameOf s i).request.kind = 2)
    (named : (frameOf s i).request.slot.toNat = k.val) (owner : (recordOf s k).owner = some p)
    (free : ∀ j, heldSlot s j ≠ some k) :
    settleFrame s p i = acceptForSource (holdFrame s i) k ∧
      asksForLatePlan s p i = (s.planner.timerRunning &&
        decide (s.planner.lateThreshold ≤ s.planner.secondsRemaining)) := by
  have passes : intakeRefusal s p (frameOf s i).request = none := by
    rw [(requestKind_source kind).1, sourceRefusal_named named owner, heldFor_none free]
    rfl
  have source := (requestKind_source (s := s) (p := p) kind).2
  have slot := (slotOf_eq _ _).mpr named
  refine ⟨?_, by simp [asksForLatePlan, passes, source]⟩
  rcases kind with kind | kind <;> simp [settleFrame, passes, requestKind, kind, slot]

/-- R45, R77: the state once a request has been taken up for a slot. -/
def sourceAccepted (s : State) (p : PortId) (i : FrameId) (rest : List FrameId) (k : SlotId) : State :=
  acceptForSource (holdFrame (setPostList s p rest) i) k

theorem sourceAccepted_eq {r : Request} {k : SlotId}
    (clamped : clampedRequest s (frameOf s i).request = r) : sourceAccepted s p i rest k =
      (s.setPool { s.pool with
        frames := s.pool.frames.set i { frameOf s i with state := .held 0, request := r }
        postLists := s.pool.postLists.set p rest }).setTable { s.table with
          grants := s.table.grants.set k { grantOf s k with
            state := if (grantOf s k).state = .idle then .waiting else (grantOf s k).state
            requestGranted := false } } := by
  rw [sourceAccepted, holdFrame_setPostList, clamped]
  rfl

theorem postList_sourceAccepted {k : SlotId} {q : PortId} (other : p ≠ q) :
    postList (sourceAccepted s p i rest k) q = postList s q :=
  postList_setPostList_other s p q rest other

theorem ranks_sourceAccepted {k : SlotId} (ranks : RanksPermuted s) :
    RanksPermuted (sourceAccepted s p i rest k) := by
  refine ranks.congr fun j => ?_
  rw [sourceAccepted, grantOf_acceptForSource]
  split
  · rename_i same
    rw [same]
    rfl
  · rfl

/-- R74, R107: with no other head to take, the ask begins the late plan at once. -/
theorem takeThenPlan_asks {k : SlotId} (head : postList s p = i :: rest)
    (asks : asksForLatePlan s p i = true) (alone : ∀ q, q ≠ p → postList s q = [])
    (settles : settleFrame (setPostList s p rest) p i = sourceAccepted s p i rest k) :
    takeThenPlan p s = latePlanAsk (sourceAccepted s p i rest k).nextDraw := by
  have headAsks : headAsks s p = true := by
    rw [Machine.headAsks, head]
    exact asks
  have others : takenBeforePlan (sourceAccepted s p i rest k) p = [] := by
    refine List.filter_eq_nil_iff.mpr fun q _ => ?_
    by_cases same : q = p
    · simp [same]
    · rw [postList_sourceAccepted (Ne.symm same), alone q same]
      simp
  rw [takeThenPlan, headAsks, settleHead_cons head, settles]
  simp only [others]
  rfl

end Held

/-- Settles O18: what is held, what is accepted for a source, and the late plan that an ask begins. -/
theorem intakeHoldsAcceptedRequest : Obligations.IntakeHoldsAcceptedRequest := by
  refine ⟨fun s => ⟨latePlanAsk_planning s, latePlanAsk_suspended s⟩,
    fun p i rest s running outside idle head => ⟨fun kind => ?_, fun k named owner free r request => ?_⟩⟩
  · have silent := (settleFrame_amount (s := s) (p := p) kind).2
    have settles := (settleFrame_amount (s := setPostList s p rest) (p := p) (i := i) kind).1
    rw [exec_intakeTake running outside idle head, takeThenPlan_silent head silent, settles,
      holdFrame_setPostList, clampedRequest_amount kind]
  · have kind : (frameOf s i).request.kind = 1 ∨ (frameOf s i).request.kind = 2 :=
      request.imp And.left And.left
    have accepted := sourceAccepted_eq (p := p) (rest := rest) (k := k)
      (clampedRequest_source named request)
    have settles := (settleFrame_source (s := setPostList s p rest) (p := p) (i := i) kind named owner
      free).1
    have asks := (settleFrame_source (p := p) kind named owner free).2
    refine ⟨fun late => ?_, fun planner timer enough alone => ?_⟩
    · have silent : asksForLatePlan s p i = false := by
        rw [asks]
        rcases late with stopped | late
        · rw [stopped, Bool.false_and]
        · simp [Nat.not_le.mpr late]
      rw [exec_intakeTake running outside idle head, takeThenPlan_silent head silent, settles]
      exact congrArg Host.Outcome.next accepted
    · have asked : asksForLatePlan s p i = true := by simp [asks, timer, enough]
      have drawn : PlansAlike (sourceAccepted s p i rest k).nextDraw (sourceAccepted s p i rest k) :=
        ⟨rfl, rfl, rfl, rfl, rfl, rfl, fun _ => rfl, rfl⟩
      refine ⟨formPlan .late (markLate (sourceAccepted s p i rest k).nextDraw), ?_, fun ranks range => ?_⟩
      · rw [exec_intakeTake running outside idle head, takeThenPlan_asks head asked alone settles,
          latePlanAsk_begins (s := (sourceAccepted s p i rest k).nextDraw) planner enough]
        generalize formPlan .late (markLate (sourceAccepted s p i rest k).nextDraw) = plan
        rw [accepted]
        rfl
      · rw [← accepted]
        exact drawn.planHolds (markLate_holds (ranks_sourceAccepted ranks) range)

/-! ## A frame cancelled -/

section Cancelled
variable {s : State} {i j : FrameId}

/-- R78: the target's request once its grant has ended and it has been reported. -/
def targetCancelled (s : State) (target : FrameId) : State :=
  endRequest .cancelled (endGrantOf s target) target

theorem cancelRequest_eq (s : State) (i target : FrameId) :
    cancelRequest s i target = reportFrame .done (targetCancelled s target) i := rfl

theorem targetCancelled_moved (s : State) (target : FrameId) :
    SourcesMoved s (targetCancelled s target) :=
  (endGrantOf_moved s target).trans (endRequest_moved .cancelled _ target)

theorem frameOf_targetCancelled (held : isHeld s j = true) (m : FrameId) :
    frameOf (targetCancelled s j) m = if j = m then
        reportedFrame .cancelled s.planner.period (frameOf (endGrantOf s j) m)
      else frameOf (endGrantOf s j) m := by
  have still : isHeld (endGrantOf s j) j = true := ((endGrantOf_kept s j).isHeld_eq j).trans held
  rw [targetCancelled, frameOf_endRequest, (endGrantOf_moved s j).planner_eq]
  by_cases same : j = m
  · subst same
    rw [if_pos ⟨rfl, still⟩, if_pos rfl]
  · rw [if_neg fun both => same both.1, if_neg same]

theorem frameOf_cancelRequest (other : j ≠ i) (held : isHeld s j = true) (m : FrameId) :
    frameOf (cancelRequest s i j) m =
      if i = m then reportedFrame .done s.planner.period (frameOf (endGrantOf s j) m)
      else if j = m then reportedFrame .cancelled s.planner.period (frameOf (endGrantOf s j) m)
      else frameOf (endGrantOf s j) m := by
  rw [cancelRequest_eq, frameOf_reportFrame, (targetCancelled_moved s j).planner_eq,
    frameOf_targetCancelled held]
  by_cases same : i = m
  · subst same
    rw [if_pos rfl, if_pos rfl, if_neg other]
  · rw [if_neg same, if_neg same]

theorem releaseSource_queues (s : State) (k : SlotId) : (releaseSource s k).pool = s.pool := by
  unfold releaseSource
  split <;> rfl

/-- R80: a reported frame joins its port's reply queue. -/
theorem replyQueue_endRequest (outcome : FrameOutcome) (held : isHeld s j = true) (q : PortId) :
    replyQueue (endRequest outcome s j) q =
      if ownerOf s j = some q then replyQueue s q ++ [j] else replyQueue s q := by
  rw [endRequest, if_pos held, ← replyQueue_reportFrame outcome]
  cases heldSlot s j with
  | none => rfl
  | some k => exact congrArg (fun pool : RequestPool => pool.replyQueues[q]) (releaseSource_queues _ k)

theorem replyQueue_cancelRequest (held : isHeld s j = true) {p : PortId} (ownerI : ownerOf s i = some p)
    (ownerJ : ownerOf s j = some p) (q : PortId) : replyQueue (cancelRequest s i j) q =
      if p = q then replyQueue s q ++ [j, i] else replyQueue s q := by
  have still : isHeld (endGrantOf s j) j = true := ((endGrantOf_kept s j).isHeld_eq j).trans held
  have queue : replyQueue (endGrantOf s j) q = replyQueue s q :=
    congrArg (fun queues : Vector (List FrameId) 4 => queues[q]) (endGrantOf_kept s j).2.2.2.1
  rw [cancelRequest_eq, replyQueue_reportFrame, (targetCancelled_moved s j).ownerOf_eq, ownerI,
    targetCancelled, replyQueue_endRequest .cancelled still, (endGrantOf_moved s j).ownerOf_eq, ownerJ,
    queue]
  by_cases same : p = q
  · subst same
    simp
  · have differs : (some p : Option PortId) ≠ some q := fun e => same (Option.some.inj e)
    rw [if_neg differs, if_neg differs, if_neg same]

theorem grantOf_cancelRequest (k : SlotId) : grantOf (cancelRequest s i j) k =
    if heldSlot s j = some k ∧ isGrantWaiting (endGrantOf s j) k = true then
      { grantOf (endGrantOf s j) k with state := .idle }
    else grantOf (endGrantOf s j) k := by
  rw [cancelRequest_eq, grantOf_reportFrame, targetCancelled, grantOf_endRequest,
    (endGrantOf_kept s j).heldSlot_eq]

theorem endGrantOf_source {k : SlotId} (slot : heldSlot s j = some k) :
    endGrantOf s j = endGrant .requestEnd s k := by
  rw [endGrantOf, slot]

theorem grantOf_cancelRequest_other {k m : SlotId} (slot : heldSlot s j = some k) (other : m ≠ k) :
    grantOf (cancelRequest s i j) m = grantOf s m := by
  rw [grantOf_cancelRequest, slot, if_neg fun both => other (Option.some.inj both.1).symm,
    endGrantOf_source slot, grantOf_endGrant_other _ s k m (Ne.symm other)]

theorem grantOf_cancelRequest_still {k : SlotId} (slot : heldSlot s j = some k)
    (still : (grantOf s k).state ≠ .running) : grantOf (cancelRequest s i j) k =
      if (grantOf s k).state = .waiting then { grantOf s k with state := .idle } else grantOf s k := by
  have stays : grantOf (endGrantOf s j) k = grantOf s k := by
    rw [endGrantOf_source slot, grantOf_endGrant_self, if_neg (by simpa [isGrantRunning] using still)]
  rw [grantOf_cancelRequest, isGrantWaiting, stays, slot]
  simp

theorem grantOf_cancelRequest_running {k : SlotId} (slot : heldSlot s j = some k)
    (running : (grantOf s k).state = .running) : grantOf (cancelRequest s i j) k =
      grantEnded (recordOf s k).minRest false (grantOf s k) := by
  have some : (heldFor s k).isSome = true := (heldFor_isSome s k).mpr ⟨j, slot⟩
  have ended : grantOf (endGrantOf s j) k =
      grantEnded (recordOf s k).minRest true (grantOf s k) := by
    rw [endGrantOf_source slot, grantOf_endGrant_self, if_pos (by simp [isGrantRunning, running]),
      endedGrant_eq_grantEnded, some]
  rw [grantOf_cancelRequest, isGrantWaiting, ended, slot]
  unfold grantEnded
  split <;> simp

theorem cancelRequest_table (none : heldSlot s j = none) : (cancelRequest s i j).table = s.table := by
  have same : endGrantOf s j = s := by rw [endGrantOf, none]
  rw [cancelRequest_eq, reportFrame_table, targetCancelled, same, endRequest]
  split
  · rw [none]
    exact reportFrame_table _ s j
  · rfl

/-- R51: the cause that a cancellation gives to the request of a RUNNING source. -/
theorem result_endGrantOf {k : SlotId} (held : heldFor s k = some j)
    (running : (grantOf s k).state = .running) :
    (frameOf (endGrantOf s j) j).result.endCause = .requestEnd := by
  rw [endGrantOf_source (heldSlot_of_heldFor s k j held), result_endGrant_self _ s k j held,
    if_pos (by simp [isGrantRunning, running])]

end Cancelled

/-- Settles O19: the source's grant ends, the target is reported, and then the CANCEL frame. -/
theorem intakeCancelsHeldRequest : Obligations.IntakeCancelsHeldRequest := by
  intro p i j rest s running outside idle head ownerI posted cancel named ownerJ held
  have other : j ≠ i := by
    rintro rfl
    rw [isHeld_of_state posted (by simp)] at held
    cases held
  have target : cancelTarget s p (frameOf s i).request.cancel = some j := cancelTarget_of named ownerJ held
  have passes : intakeRefusal s p (frameOf s i).request = none := by
    rw [intakeRefusal, cancel, target]
    rfl
  have silent : asksForLatePlan s p i = false := by
    simp [asksForLatePlan, cancel, requestKind, kindNamesSource]
  let u := setPostList s p rest
  have settles : settleFrame u p i = cancelRequest u i j := by
    have passes' : intakeRefusal u p (frameOf u i).request = none := passes
    have cancel' : (frameOf u i).request.kind = 5 := cancel
    have target' : cancelTarget u p (frameOf u i).request.cancel = some j := target
    rw [settleFrame, passes', cancel', target']
    rfl
  have moved : SourcesMoved u (cancelRequest u i j) := cancelRequest_moved u i j
  have queues (q : PortId) : replyQueue (cancelRequest u i j) q =
      if p = q then replyQueue s q ++ [j, i] else replyQueue s q :=
    replyQueue_cancelRequest (s := u) held ownerI ownerJ q
  have frames (m : FrameId) := frameOf_cancelRequest (s := u) other held m
  have kept := (endGrantOf_kept u j).2.2.2.2
  have posts (q : PortId) : postList (cancelRequest u i j) q = postList u q :=
    congrArg (fun lists : Vector (List FrameId) 4 => lists[q]) moved.2.2.2.2
  have frameI : frameOf (cancelRequest u i j) i =
      reportedFrame .done s.planner.period (frameOf (endGrantOf u j) i) := by
    rw [frames, if_pos rfl]
    rfl
  have frameJ : frameOf (cancelRequest u i j) j =
      reportedFrame .cancelled s.planner.period (frameOf (endGrantOf u j) j) := by
    rw [frames, if_neg (Ne.symm other), if_pos rfl]
    rfl
  obtain ⟨eq, records, shares, free, -⟩ := moved
  refine ⟨cancelRequest u i j, ?_, ?_, ?_, ?_, ?_, ?_, ?_, ?_, ?_, eq, records, shares, free,
    fun q differs => ⟨?_, ?_⟩, fun m notI notJ => ?_, fun none => ?_, fun k slot =>
      ⟨fun m differs => ?_, fun runs alone => ⟨?_, ?_⟩, fun waits => ?_, fun rests => ?_⟩⟩
  · rw [exec_intakeTake running outside idle head, takeThenPlan_silent head silent, settles]
  · rw [posts]
    exact postList_setPostList_self s p rest
  · rw [queues, if_pos rfl]
  · rw [frameJ]; rfl
  · rw [frameJ]; rfl
  · rw [frameJ]; rfl
  · rw [frameI]; rfl
  · rw [frameI]; rfl
  · rw [frameI]; rfl
  · rw [posts]
    exact postList_setPostList_other s p q rest (Ne.symm differs)
  · rw [queues, if_neg (Ne.symm differs)]
  · rw [frames, if_neg (Ne.symm notI), if_neg (Ne.symm notJ)]
    exact kept m
  · exact cancelRequest_table (s := u) none
  · exact grantOf_cancelRequest_other (s := u) slot differs
  · rw [frameJ]
    exact result_endGrantOf (s := u) alone runs
  · exact grantOf_cancelRequest_running (s := u) slot runs
  · have still : grantOf (cancelRequest u i j) k = _ :=
      grantOf_cancelRequest_still (s := u) slot fun runs => by
        have both : (grantOf s k).state = .running := runs
        rw [waits] at both
        cases both
    have waits' : (grantOf u k).state = .waiting := waits
    rw [still, if_pos waits']
  · have still : grantOf (cancelRequest u i j) k = _ :=
      grantOf_cancelRequest_still (s := u) slot fun runs => by
        have both : (grantOf s k).state = .running := runs
        rw [rests] at both
        cases both
    have rests' : (grantOf u k).state ≠ .waiting := fun waits => by
      have both : (grantOf s k).state = .waiting := waits
      rw [rests] at both
      cases both
    rw [still, if_neg rests']
    rfl

end Sys2Proof.Machine
end

section
/-! SUPPORT. The completion of a plan (R104 to R110): what applying it leaves, and the late plan that may
follow. -/

namespace Sys2Proof.Machine

/-! ## A plan applied -/

theorem applyPlan_settingsKept (plan : Plan) (s : State) : settingsKept s (applyPlan plan s) := by
  have kept := applyPlan_eventKept plan s
  obtain ⟨u, moved, eq⟩ := applyPlan_eq plan s
  have cycle : (applyPlan plan s).cycle = s.cycle := by
    rw [eq]
    exact moved.cycle_eq
  have ports : (applyPlan plan s).ports = s.ports := by
    rw [eq]
    exact moved.ports_eq
  exact ⟨kept.part, cycle, ports, kept.wires, applyPlan_store plan s, kept.records, kept.modes,
    kept.shares, kept.freeLists, kept.postLists⟩

theorem applyPlan_scanner (plan : Plan) (s : State) : (applyPlan plan s).scanner = s.scanner := by
  obtain ⟨u, moved, eq⟩ := applyPlan_eq plan s
  rw [eq]
  exact moved.scanner_eq

theorem applyPlan_safety (plan : Plan) (s : State) : (applyPlan plan s).safety = s.safety := by
  obtain ⟨u, moved, eq⟩ := applyPlan_eq plan s
  rw [eq]
  exact moved.safety_eq

/-- R104, R106, R108: the state once a plan has been applied and the planner has left PLANNING. -/
def planCompleted (plan : Plan) (s : State) : State := beginMarkedLatePlan (planEnded (applyPlan plan s))

theorem planCompleted_eq (plan : Plan) (s : State) : planCompleted plan s =
    (applyPlan plan s).setPlanner (planCompleted plan s).planner := by
  rw [planCompleted, beginMarkedLatePlan_eq]
  rfl

/-- R104, R106: what the completion of a plan leaves, the planner's next state aside. -/
structure PlanTaken (plan : Plan) (s t : State) : Prop where
  published : t.planner.published = plan.figures
  lateMark : t.planner.lateMark = false
  period : t.planner.period = s.planner.period
  timer : t.planner.timerRunning = s.planner.timerRunning
  seconds : t.planner.secondsRemaining = s.planner.secondsRemaining
  snapshot : t.planner.snapshot = s.planner.snapshot
  scanner : t.scanner = s.scanner
  model : t.model = s.model
  safety : t.safety = s.safety
  settings : settingsKept s t
  pool : poolKept s t
  applied : PlanFormed plan → planApplied plan s t

/-- R108: with the mark set, a late plan may begin: nothing of the planner changes but its state and the
mark. -/
theorem beginMarkedLatePlan_planner (s : State) : ∃ state, (beginMarkedLatePlan s).planner =
    { s.planner with state := state, lateMark := false } := by
  by_cases marked : s.planner.lateMark = true
  · by_cases enough : s.planner.lateThreshold ≤ s.planner.secondsRemaining
    · rw [beginMarkedLatePlan_begins marked enough]
      exact ⟨_, rfl⟩
    · rw [beginMarkedLatePlan_short (Nat.not_le.mp enough)]
      exact ⟨_, rfl⟩
  · have clear : s.planner.lateMark = false := by simpa using marked
    rw [beginMarkedLatePlan_unmarked s clear, ← clear]
    exact ⟨_, rfl⟩

/-- The planner as the completion finds it for the next plan (R92, R106). -/
theorem planEnded_planner (plan : Plan) (s : State) : (planEnded (applyPlan plan s)).planner =
    { s.planner with published := plan.figures, state := .idle } := by
  have planner : (planEnded (applyPlan plan s)).planner =
      { (applyPlan plan s).planner with state := .idle } := rfl
  rw [planner, applyPlan_planner]

theorem setPlanner_settingsKept {s a : State} {x : Planner} (kept : settingsKept s a) :
    settingsKept s (a.setPlanner x) := kept

theorem setPlanner_poolKept {s a : State} {x : Planner} (kept : poolKept s a) :
    poolKept s (a.setPlanner x) := kept

theorem setPlanner_planApplied {s a : State} {plan : Plan} {x : Planner} (applied : planApplied plan s a) :
    planApplied plan s (a.setPlanner x) := applied

theorem planCompleted_taken (plan : Plan) (s : State) : PlanTaken plan s (planCompleted plan s) := by
  obtain ⟨state, planner⟩ := beginMarkedLatePlan_planner (planEnded (applyPlan plan s))
  rw [planEnded_planner] at planner
  have eq := planCompleted_eq plan s
  have next : (planCompleted plan s).planner = _ := planner
  generalize planCompleted plan s = t at *
  have settings : settingsKept s t := by
    rw [eq]
    exact setPlanner_settingsKept (applyPlan_settingsKept plan s)
  have pool : poolKept s t := by
    rw [eq]
    exact setPlanner_poolKept (applyPlan_kept plan s)
  refine ⟨by rw [next], by rw [next], by rw [next], by rw [next], by rw [next], by rw [next], ?_, ?_, ?_,
    settings, pool, fun formed => ?_⟩
  · rw [eq, State.setPlanner_scanner, applyPlan_scanner]
  · rw [eq, State.setPlanner_model, applyPlan_model]
  · rw [eq, State.setPlanner_safety, applyPlan_safety]
  · rw [eq]
    exact setPlanner_planApplied (applyPlan_applied plan s formed)

theorem planCompleted_unmarked {plan : Plan} {s : State} (clear : s.planner.lateMark = false) :
    (planCompleted plan s).planner.state = .idle := by
  rw [planCompleted, beginMarkedLatePlan_unmarked _ (by rw [planEnded_planner]; exact clear),
    planEnded_planner]

theorem planCompleted_short {plan : Plan} {s : State}
    (short : s.planner.secondsRemaining < s.planner.lateThreshold) :
    (planCompleted plan s).planner.state = .idle := by
  rw [planCompleted, beginMarkedLatePlan_short (by rw [planEnded_planner]; exact short),
    State.setPlanner_planner, planEnded_planner]

/-- R108: the late plan that follows a completion. -/
theorem planCompleted_late {plan : Plan} {s : State} (marked : s.planner.lateMark = true)
    (enough : s.planner.lateThreshold ≤ s.planner.secondsRemaining) :
    ∃ next, (planCompleted plan s).planner.state = .planningLate next ∧
      (RanksPermuted s → imageInRange s.store.image → planHolds .late (planCompleted plan s) next) := by
  have begins : planCompleted plan s = (planEnded (applyPlan plan s)).setPlanner
      { (planEnded (applyPlan plan s)).planner with
        state := .planningLate (formPlan .late (planEnded (applyPlan plan s))), lateMark := false } :=
    beginMarkedLatePlan_begins (by rw [planEnded_planner]; exact marked)
      (by rw [planEnded_planner]; exact enough)
  refine ⟨formPlan .late (planEnded (applyPlan plan s)), by rw [begins]; rfl, fun ranks range => ?_⟩
  have applied : RanksPermuted (applyPlan plan s) :=
    (applyPlan_grantsKept (listed := True) plan s).ranks ranks
  have image : imageInRange (planEnded (applyPlan plan s)).store.image := by
    have store : (planEnded (applyPlan plan s)).store = s.store := applyPlan_store plan s
    rw [store]
    exact range
  have held := formPlan_holds_inRange .late (planEnded (applyPlan plan s)) applied image
  rw [begins]
  exact (PlansAlike.setPlanner _ rfl).planHolds held

/-! ## The two commands -/

section Commands
variable {s : State} {plan : Plan}

theorem exec_planCompletion (full : s.planner.state = .planningFull plan) :
    exec .planCompletion s = .next (planCompleted plan s) := by
  simp only [exec, execPlanCompletion, full]
  rfl

theorem exec_planCompletion_none (none : ∀ plan, s.planner.state ≠ .planningFull plan) :
    exec .planCompletion s = .next s := by
  simp only [exec, execPlanCompletion]
  split
  case h_1 plan full => exact absurd full (none plan)
  all_goals rfl

theorem exec_latePlanCompletion (late : s.planner.state = .planningLate plan)
    (enough : s.planner.lateThreshold ≤ s.planner.secondsRemaining) :
    exec .latePlanCompletion s = .next (planCompleted plan s) := by
  simp only [exec, execLatePlanCompletion, late, enough, if_true]
  rfl

theorem exec_latePlanCompletion_short (late : s.planner.state = .planningLate plan)
    (short : s.planner.secondsRemaining < s.planner.lateThreshold) :
    exec .latePlanCompletion s = .next (beginMarkedLatePlan (planEnded s)) := by
  simp only [exec, execLatePlanCompletion, late, Nat.not_le.mpr short, if_false]

theorem exec_latePlanCompletion_none (none : ∀ plan, s.planner.state ≠ .planningLate plan) :
    exec .latePlanCompletion s = .next s := by
  simp only [exec, execLatePlanCompletion]
  split
  case h_1 plan late => exact absurd late (none plan)
  all_goals rfl

end Commands

/-- Settles O35: the plan applied, and the late plan that the mark asks for. -/
theorem planCompletionApplies : Obligations.PlanCompletionApplies := by
  refine ⟨fun s none => exec_planCompletion_none none, fun s plan full => ?_⟩
  have taken := planCompleted_taken plan s
  refine ⟨planCompleted plan s, exec_planCompletion full, taken.published, taken.lateMark, ?_,
    planCompleted_late, taken.period, taken.timer, taken.seconds, taken.snapshot, taken.scanner,
    taken.model, taken.safety, taken.settings, taken.pool, taken.applied⟩
  rintro (clear | short)
  · exact planCompleted_unmarked clear
  · exact planCompleted_short short

/-- Settles O36: with seconds too few the late plan is dropped. -/
theorem latePlanCompletionApplies : Obligations.LatePlanCompletionApplies := by
  refine ⟨fun s none => exec_latePlanCompletion_none none,
    fun s plan late => ⟨fun short => ?_, fun enough => ?_⟩⟩
  · rw [exec_latePlanCompletion_short late short,
      beginMarkedLatePlan_short (s := planEnded s) short]
    rfl
  · have taken := planCompleted_taken plan s
    exact ⟨planCompleted plan s, exec_latePlanCompletion late enough, taken.published, taken.lateMark,
      planCompleted_unmarked, fun marked => planCompleted_late marked enough, taken.period,
      taken.snapshot, taken.scanner, taken.model, taken.safety, taken.settings, taken.pool,
      taken.applied⟩

end Sys2Proof.Machine
end

section
/-! SUPPORT. PORT-RESET (R84, R149, R165): the frames it frees, the sources whose requests it discards, and
the port's alert sets. -/

namespace Sys2Proof.Machine

/-! ## The sources of discarded requests -/

/-- R84: a grant record once its slot's request has been discarded. -/
def discardedGrant (minRest : Nat) (held : Bool) (g : GrantRecord) : GrantRecord :=
  if g.state = .running then
    let ended := grantEnded minRest held g
    if ended.state = .waiting then { ended with state := .idle } else ended
  else if g.state = .waiting then { g with state := .idle }
  else g

theorem discardedGrant_running {minRest : Nat} {g : GrantRecord} (running : g.state = .running) :
    discardedGrant minRest false g = grantEnded minRest false g := by
  rw [discardedGrant, if_pos running]
  unfold grantEnded
  split <;> simp

theorem discardedGrant_waiting {minRest : Nat} {held : Bool} {g : GrantRecord}
    (waiting : g.state = .waiting) : discardedGrant minRest held g = { g with state := .idle } := by
  simp [discardedGrant, waiting]

theorem discardedGrant_settled {minRest : Nat} {held : Bool} {g : GrantRecord}
    (still : g.state ≠ .waiting ∧ g.state ≠ .running) : discardedGrant minRest held g = g := by
  rw [discardedGrant, if_neg still.2, if_neg still.1]

theorem grantOf_sourceDiscarded_self (s : State) (k : SlotId) : grantOf (sourceDiscarded s k) k =
    discardedGrant (recordOf s k).minRest (heldFor s k).isSome (grantOf s k) := by
  have ended := grantOf_endGrant_self .requestEnd s k
  rw [endedGrant_eq_grantEnded] at ended
  rw [sourceDiscarded, grantOf_releaseSource, isGrantWaiting, ended, discardedGrant]
  by_cases running : (grantOf s k).state = .running
  · have runs : isGrantRunning s k = true := by simp [isGrantRunning, running]
    rw [if_pos runs, if_pos running]
    simp
  · have still : isGrantRunning s k = false := by simpa [isGrantRunning] using running
    simp [still, running]

/-- R84: discarding a slot's request again changes nothing, nor does discarding that of another. -/
theorem sourcesDiscarded_named {slots : List SlotId} (s : State) {k : SlotId} (mem : k ∈ slots) :
    grantOf (slots.foldl sourceDiscarded s) k =
      discardedGrant (recordOf s k).minRest (heldFor s k).isSome (grantOf s k) := by
  induction slots generalizing s with
  | nil => cases mem
  | cons j rest ih =>
    rw [List.foldl_cons]
    by_cases later : k ∈ rest
    · rw [ih (sourceDiscarded s j) later, recordOf_sourceDiscarded,
        (sourceDiscarded_kept s j).heldFor_eq]
      by_cases same : j = k
      · subst same
        rw [discardedGrant_settled (sourceDiscarded_stopped s j), grantOf_sourceDiscarded_self]
      · rw [grantOf_sourceDiscarded_other s same]
    · obtain rfl : k = j := (List.mem_cons.mp mem).resolve_right later
      rw [(sourcesDiscarded rest _ k).1 later, grantOf_sourceDiscarded_self]

/-- R84: the cause of a discarded request's grant goes into no frame but those held. -/
theorem frameOf_sourcesDiscarded (slots : List SlotId) (s : State) {i : FrameId}
    (unheld : heldSlot s i = none) : frameOf (slots.foldl sourceDiscarded s) i = frameOf s i := by
  induction slots generalizing s with
  | nil => rfl
  | cons j rest ih =>
    rw [List.foldl_cons, ih _ (((sourceDiscarded_kept s j).heldSlot_eq i).trans unheld), sourceDiscarded,
      frameOf_releaseSource]
    exact frameOf_endGrants_other .requestEnd [j] s i fun k held => by
      rw [unheld] at held
      cases held

/-! ## The port's frames -/

section Frames
variable {p : PortId} {s : State}

theorem isHeld_framesFreed {i : FrameId} (mine : ownerOf s i = some p) :
    isHeld (framesFreed p s) i = false := by
  refine isHeld_of_state (st := .free) ?_ (by simp)
  rw [frameOf_framesFreed, if_pos mine]

theorem heldSlot_framesFreed (i : FrameId) : heldSlot (framesFreed p s) i =
    if ownerOf s i = some p then none else heldSlot s i := by
  by_cases mine : ownerOf s i = some p
  · rw [if_pos mine, heldSlot_of_not_isHeld (isHeld_framesFreed mine)]
  · rw [if_neg mine]
    refine heldSlot_of_frame _ _ i ?_
    rw [frameOf_framesFreed, if_neg mine]

theorem frameOf_resetFrames_mine {i : FrameId} (mine : ownerOf s i = some p) :
    frameOf (resetFrames p s) i = { frameOf s i with state := .free } := by
  rw [resetFrames_eq, frameOf_reset, requestsDiscarded, frameOf_sourcesDiscarded, frameOf_framesFreed,
    if_pos mine]
  rw [heldSlot_framesFreed, if_pos mine]

theorem frameOf_resetFrames_other {i : FrameId} (other : ownerOf s i ≠ some p) :
    (frameOf (resetFrames p s) i).state = (frameOf s i).state ∧
      (frameOf (resetFrames p s) i).request = (frameOf s i).request := by
  obtain ⟨state, request⟩ := (requestsDiscarded_kept p s).2.2.2.2 i
  rw [resetFrames_eq, frameOf_reset, state, request, frameOf_framesFreed, if_neg other]
  exact ⟨rfl, rfl⟩

theorem mem_discarded (k : SlotId) : k ∈ (portFrames s.pool.shares p).filterMap (heldSlot s) ↔
    ∃ i, ownerOf s i = some p ∧ heldSlot s i = some k := by
  simp only [List.mem_filterMap, mem_portFrames]
  rfl

theorem grantOf_resetFrames_stands {k : SlotId}
    (spared : ∀ i, ownerOf s i = some p → heldSlot s i ≠ some k) :
    grantOf (resetFrames p s) k = grantOf s k := by
  have absent : k ∉ (portFrames s.pool.shares p).filterMap (heldSlot s) := by
    rw [mem_discarded]
    rintro ⟨i, mine, slot⟩
    exact spared i mine slot
  rw [grantOf_resetFrames, requestsDiscarded, (sourcesDiscarded _ _ k).1 absent, grantOf_framesFreed]

theorem recordOf_framesFreed (k : SlotId) : recordOf (framesFreed p s) k = recordOf s k :=
  (framesFreed_moved p s).recordOf_eq k

theorem grantOf_resetFrames_discarded {i : FrameId} {k : SlotId} (mine : ownerOf s i = some p)
    (slot : heldSlot s i = some k) : grantOf (resetFrames p s) k =
      discardedGrant (recordOf s k).minRest (heldFor (framesFreed p s) k).isSome (grantOf s k) := by
  rw [grantOf_resetFrames, requestsDiscarded,
    sourcesDiscarded_named _ (mem_discarded k |>.mpr ⟨i, mine, slot⟩), recordOf_framesFreed,
    grantOf_framesFreed]

theorem heldFor_framesFreed {k : SlotId} (all : ∀ j, heldSlot s j = some k → ownerOf s j = some p) :
    heldFor (framesFreed p s) k = none := by
  refine heldFor_none fun j held => ?_
  rw [heldSlot_framesFreed] at held
  split at held
  · cases held
  · rename_i other
    exact other (all j held)

theorem resetFrames_stopped {i : FrameId} {k : SlotId} (mine : ownerOf s i = some p)
    (slot : heldSlot s i = some k) : (grantOf (resetFrames p s) k).state ≠ .running ∧
      (grantOf (resetFrames p s) k).state ≠ .waiting := by
  rw [grantOf_resetFrames, requestsDiscarded]
  exact ((sourcesDiscarded _ _ k).2.1 ((mem_discarded k).mpr ⟨i, mine, slot⟩)).symm

end Frames

/-! ## The command -/

/-- R84, R149: the four blocks once they have acted on behalf of a port. -/
def portInOrder (p : PortId) (s : State) : State := emptyAlerts p (resetFrames p s)

theorem portInOrder_eq (p : PortId) (s : State) : ∃ pool table alerts,
    portInOrder p s = ((s.setPool pool).setTable table).setAlerts alerts ∧
      alerts.modes = s.alerts.modes ∧ alerts.heldLost = s.alerts.heldLost ∧
      table.records = s.table.records ∧ pool.shares = s.pool.shares := by
  obtain ⟨pool, table, eq, records⟩ := resetFrames_blocks p s
  have shares : (resetFrames p s).pool.shares = s.pool.shares := (requestsDiscarded_moved p s).2.2.1
  rw [portInOrder, emptyAlerts_eq, eq]
  rw [eq] at shares
  exact ⟨pool, table, _, rfl, rfl, rfl, records, shares⟩

theorem exec_portReset {p : PortId} {s : State} (decoding : decodes s p = true)
    (idle : planInFlight s = false) : exec (.portReset p) s =
      .next ((portInOrder p (heard p s)).setPorts (repliedAt s p 0 ⟨.ok, []⟩)) := by
  have free : planInFlight (heard p s) = false := idle
  have ports : (portInOrder p (heard p s)).ports = (heard p s).ports := by
    obtain ⟨pool, table, alerts, eq, -⟩ := portInOrder_eq p (heard p s)
    rw [eq]
    rfl
  rw [exec_served (body := portResetAnswer p) rfl decoding, portResetAnswer, free,
    ← answered_setSelector p ⟨.ok, []⟩ 0 s _ ports]
  rfl

/-- R149: the alert sets of the port and of the others. -/
theorem alerts_portInOrder (p : PortId) (s : State) :
    awaitingOf (portInOrder p s) p = [] ∧
      (∀ k, k ∈ pendingOf (portInOrder p s) p ↔
        modeOf s k = .level ∧ subscribed s p k = true ∧ condition s k = true) ∧
      ∀ q, q ≠ p → pendingOf (portInOrder p s) q = pendingOf s q ∧
        awaitingOf (portInOrder p s) q = awaitingOf s q := by
  obtain ⟨pool, table, eq, -⟩ := resetFrames_blocks p s
  have pends := mem_pendingOf_emptyAlerts p (resetFrames p s)
  have others (q : PortId) (differs : q ≠ p) := emptyAlerts_other p q (resetFrames p s) differs.symm
  refine ⟨awaitingOf_emptyAlerts p _, fun k => ?_, fun q differs => ?_⟩
  · have same : modeOf (resetFrames p s) k = modeOf s k ∧
        subscribed (resetFrames p s) p k = subscribed s p k ∧
        condition (resetFrames p s) k = condition s k := by
      rw [eq]
      exact ⟨rfl, rfl, condition_congr rfl rfl rfl rfl rfl rfl k⟩
    rw [portInOrder, pends, same.1, same.2.1, same.2.2]
  · rw [portInOrder, (others q differs).1, (others q differs).2, eq]
    exact ⟨rfl, rfl⟩

theorem pool_portInOrder (p : PortId) (s : State) :
    (portInOrder p s).pool = (resetFrames p s).pool := by
  rw [portInOrder, emptyAlerts_eq]
  rfl

theorem table_portInOrder (p : PortId) (s : State) :
    (portInOrder p s).table = (resetFrames p s).table := by
  rw [portInOrder, emptyAlerts_eq]
  rfl

theorem frameOf_portInOrder (p : PortId) (s : State) (i : FrameId) :
    frameOf (portInOrder p s) i = frameOf (resetFrames p s) i := by
  rw [frameOf, pool_portInOrder]
  rfl

theorem grantOf_portInOrder (p : PortId) (s : State) (k : SlotId) :
    grantOf (portInOrder p s) k = grantOf (resetFrames p s) k := by
  rw [grantOf, table_portInOrder]
  rfl

theorem lists_portInOrder (p q : PortId) (s : State) :
    freeList (portInOrder p s) q = (if q = p then portFrames s.pool.shares p else freeList s q) ∧
      postList (portInOrder p s) q = (if q = p then [] else postList s q) ∧
      replyQueue (portInOrder p s) q = (if q = p then [] else replyQueue s q) := by
  rw [freeList, postList, replyQueue, pool_portInOrder]
  exact lists_resetFrames p q s

theorem portFrames_eq_filter (p : PortId) (s : State) : portFrames s.pool.shares p =
    (List.finRange 48).filter fun i => decide (ownerOf s i = some p) :=
  List.filter_congr fun i _ => by
    rw [Bool.eq_iff_iff, beq_iff_eq, decide_eq_true_iff, ownerOf]

/-- R84: the grants of the port's held requests. -/
theorem grantOf_portInOrder_discarded {p : PortId} {s : State} {i : FrameId} {k : SlotId}
    (mine : ownerOf s i = some p) (slot : heldSlot s i = some k) :
    (grantOf (portInOrder p s) k).state ≠ .running ∧ (grantOf (portInOrder p s) k).state ≠ .waiting ∧
      ((grantOf s k).state = .running → (∀ j, heldSlot s j = some k → ownerOf s j = some p) →
        grantOf (portInOrder p s) k = grantEnded (recordOf s k).minRest false (grantOf s k)) ∧
      ((grantOf s k).state = .waiting →
        grantOf (portInOrder p s) k = { grantOf s k with state := .idle }) ∧
      ((grantOf s k).state = .resting → grantOf (portInOrder p s) k = grantOf s k) := by
  rw [grantOf_portInOrder]
  have discarded := grantOf_resetFrames_discarded mine slot
  refine ⟨(resetFrames_stopped mine slot).1, (resetFrames_stopped mine slot).2,
    fun running all => ?_, fun waiting => ?_, fun resting => ?_⟩
  · rw [discarded, heldFor_framesFreed all]
    exact discardedGrant_running running
  · rw [discarded, discardedGrant_waiting waiting]
  · rw [discarded, discardedGrant_settled (by simp [resting])]

/-- Settles O50, block by block. -/
theorem portResetPutsPortInOrder : Obligations.PortResetPutsPortInOrder := by
  intro p s decoding
  refine ⟨fun busy => ?_, fun idle => ?_⟩
  · have flight : planInFlight (heard p s) = true := busy
    exact exec_refused (body := portResetAnswer p) rfl decoding (by rw [portResetAnswer, if_pos flight])
  obtain ⟨pool, table, alerts, eq, modes, lost, records, shares⟩ := portInOrder_eq p (heard p s)
  have lists (q : PortId) := lists_portInOrder p q (heard p s)
  obtain ⟨awaiting, pending, alertsOthers⟩ := alerts_portInOrder p (heard p s)
  have frames := frameOf_portInOrder p (heard p s)
  have mineFrames := @frameOf_resetFrames_mine p (heard p s)
  have otherFrames := @frameOf_resetFrames_other p (heard p s)
  have discarded := @grantOf_portInOrder_discarded p (heard p s)
  have stands (k : SlotId) := (grantOf_portInOrder p (heard p s) k).trans ∘
    @grantOf_resetFrames_stands p (heard p s) k
  refine ⟨_, exec_portReset decoding idle, rfl, ?_⟩
  simp only [State.setPorts_store, State.setPorts_planner, State.setPorts_part, State.setPorts_scanner,
    State.setPorts_model, State.setPorts_safety, State.setPorts_cycle, State.setPorts_alerts,
    State.setPorts_table, State.setPorts_pool, State.setPorts_wires]
  generalize portInOrder p (heard p s) = t at *
  have same : t.store = s.store ∧ t.planner = s.planner ∧ t.part = s.part ∧ t.scanner = s.scanner ∧
      t.model = s.model ∧ t.safety = s.safety ∧ t.cycle = s.cycle ∧ t.alerts.modes = s.alerts.modes ∧
      t.alerts.heldLost = s.alerts.heldLost ∧ t.table.records = s.table.records ∧
      t.pool.shares = s.pool.shares ∧ t.wires = s.wires := by
    rw [eq]
    exact ⟨rfl, rfl, rfl, rfl, rfl, rfl, rfl, modes, lost, records, shares, rfl⟩
  obtain ⟨store, planner, part, scanner, model, safety, cycle, modes, lost, records, shares, wires⟩ := same
  have free : freeList t p = (List.finRange 48).filter fun i => decide (ownerOf s i = some p) :=
    ((lists p).1.trans (if_pos rfl)).trans (portFrames_eq_filter p s)
  refine ⟨store, planner, part, scanner, model, safety, cycle, modes, lost, records, shares, wires,
    fun i mine => (frames i).trans (mineFrames mine), fun i other => ?_,
    free, (lists p).2.1.trans (if_pos rfl), (lists p).2.2.trans (if_pos rfl),
    fun i k mine slot => discarded mine slot, fun k spared => stands k spared,
    awaiting, fun k => ?_, fun q differs => ?_⟩
  · have := otherFrames (i := i) other
    rw [← frames i] at this
    exact this
  · have := pending k
    rw [condition_heard] at this
    exact this
  · obtain ⟨free, post, reply⟩ := lists q
    rw [if_neg differs] at free post reply
    exact ⟨free, post, reply, alertsOthers q differs⟩

end Sys2Proof.Machine
end

section
/-! SUPPORT. The frames through a period start (R51, R57, R79, R82): what it counts, which requests expire,
and the cause that the end of a grant leaves in one. -/

namespace Sys2Proof.Machine

/-! ## Causes -/

/-- R47: a frame with another end cause in it. -/
def withCause (cause : EndCause) (fr : Frame) : Frame :=
  { fr with result := { fr.result with endCause := cause } }

@[simp] theorem withCause_state (cause : EndCause) (fr : Frame) :
    (withCause cause fr).state = fr.state := rfl

@[simp] theorem withCause_request (cause : EndCause) (fr : Frame) :
    (withCause cause fr).request = fr.request := rfl

@[simp] theorem withCause_outcome (cause : EndCause) (fr : Frame) :
    (withCause cause fr).result.outcome = fr.result.outcome := rfl

@[simp] theorem withCause_endPeriod (cause : EndCause) (fr : Frame) :
    (withCause cause fr).result.endPeriod = fr.result.endPeriod := rfl

@[simp] theorem withCause_periodsRun (cause : EndCause) (fr : Frame) :
    (withCause cause fr).result.periodsRun = fr.result.periodsRun := rfl

theorem withCause_self (fr : Frame) : withCause fr.result.endCause fr = fr := rfl

/-- A later cause leaves nothing of the earlier ones, the report between them or not. -/
theorem withCause_absorbs (early mid late : EndCause) (due : Prop) [Decidable due]
    (outcome : FrameOutcome) (period : Word) (fr : Frame) :
    withCause late (if due then reportedFrame outcome period (withCause mid (withCause early fr))
      else withCause mid (withCause early fr)) =
      withCause late (if due then reportedFrame outcome period fr else fr) := by
  split <;> rfl

theorem frameOf_endGrant_withCause (cause : EndCause) (s : State) (k : SlotId) (i : FrameId) :
    ∃ c, frameOf (endGrant cause s k) i = withCause c (frameOf s i) := by
  unfold endGrant recordCause
  split
  · rw [frameOf_modGrant]
    split
    · exact ⟨_, rfl⟩
    · rename_i j _
      by_cases same : j = i
      · subst same
        exact ⟨cause, frameOf_modFrame_self s j _⟩
      · exact ⟨_, frameOf_modFrame_other s j i _ same⟩
  · exact ⟨_, rfl⟩

/-- R47: the ends of grants write nothing but causes. -/
theorem frameOf_endGrants_withCause (cause : EndCause) (slots : List SlotId) (s : State) (i : FrameId) :
    ∃ c, frameOf (endGrants cause s slots) i = withCause c (frameOf s i) := by
  induction slots generalizing s with
  | nil => exact ⟨_, rfl⟩
  | cons k rest ih =>
    obtain ⟨late, after⟩ := ih (endGrant cause s k)
    obtain ⟨early, before⟩ := frameOf_endGrant_withCause cause s k i
    rw [before] at after
    exact ⟨late, after⟩

/-! ## The expiries -/

/-- R82: only a HELD request expires. -/
theorem isHeld_of_expires {s : State} {i : FrameId} (h : expires s i = true) : isHeld s i = true := by
  have reached : spanReached (frameOf s i) = true := by
    unfold expires at h
    split at h <;> simp_all
  unfold spanReached at reached
  unfold isHeld
  split at reached <;> simp_all

/-- R82: the slots of the requests that expire. -/
def expiringSlots (s : State) : List SlotId := (allFrames.filter (expires s)).filterMap (heldSlot s)

theorem mem_expiringSlots (s : State) (k : SlotId) :
    k ∈ expiringSlots s ↔ ∃ i, expires s i = true ∧ heldSlot s i = some k := by
  simp [expiringSlots, List.mem_filterMap]

/-- R82: a frame after the expiries, once the grants have ended. -/
theorem frameOf_expireRequests (s : State) (i : FrameId) :
    frameOf (expireRequests s) i =
      if expires s i = true then reportedFrame (expiryOutcome s i) s.planner.period
        (frameOf (endGrants .requestEnd s (expiringSlots s)) i)
      else frameOf (endGrants .requestEnd s (expiringSlots s)) i := by
  have kept := endGrants_kept .requestEnd s (expiringSlots s)
  have frame := frameOf_endRequests (expiryOutcome s) (endGrants .requestEnd s (expiringSlots s))
    (expires s) i
  rw [kept.isHeld_eq, (endGrants_moved .requestEnd s (expiringSlots s)).planner_eq] at frame
  unfold expireRequests
  dsimp only
  rw [endGrantOfs_eq]
  refine frame.trans ?_
  by_cases due : expires s i = true
  · rw [if_pos ⟨due, isHeld_of_expires due⟩, if_pos due]
  · rw [if_neg fun h => due h.1, if_neg due]

/-! ## The stages of a period start -/

/-- R51, R161: the counted state once the silence has ended the grants that it reaches first. -/
def silencedCounted (first : Bool) (s : State) : State :=
  endGrants .portSilent (countedState first s) (silencedFirst (countedState first s))

/-- R82: the state that the cycle evaluates itself on. -/
def expiredState (first : Bool) (s : State) : State := expireRequests (silencedCounted first s)

section Stages
variable {first : Bool} {s : State} {i : FrameId} {k : SlotId}

theorem periodCounted_eq : periodCounted first s =
    countSilence (evaluateCycle (expiredState first s)) := rfl

theorem silencedCounted_kept : poolKept (countedState first s) (silencedCounted first s) :=
  endGrants_kept _ _ _

theorem heldSlot_silencedCounted : heldSlot (silencedCounted first s) i = heldSlot s i :=
  (silencedCounted_kept.heldSlot_eq i).trans (heldSlot_countedState first s i)

theorem expires_silencedCounted : expires (silencedCounted first s) i =
    expires (countedState first s) i := by
  obtain ⟨state, request⟩ := (silencedCounted_kept (first := first) (s := s)).2.2.2.2 i
  unfold expires spanReached
  rw [silencedCounted_kept.kindOf_eq, state, request]

theorem expiryOutcome_silencedCounted : expiryOutcome (silencedCounted first s) i =
    expiryOutcome s i := by
  unfold expiryOutcome
  rw [silencedCounted_kept.kindOf_eq, kindOf, request_countedState]
  rfl

theorem silencedCounted_period : (silencedCounted first s).planner.period =
    if first then 0 else s.planner.period + 1 := by
  rw [silencedCounted, (endGrants_moved _ _ _).planner_eq, countedState_planner]
  rfl

theorem frameOf_evaluateCycle (s : State) (i : FrameId) :
    frameOf (evaluateCycle s) i = frameOf s i := by
  rw [evaluateCycle_eq]
  rfl

theorem grantOf_evaluateCycle (s : State) (k : SlotId) :
    grantOf (evaluateCycle s) k = grantOf s k := by
  rw [evaluateCycle_eq]
  rfl

/-- R160: the slots whose grants the silence of their port ends. -/
def silentSlots (s : State) : List SlotId := (runningSlots s).filter fun k => ownerFallsSilent s k

theorem frameOf_countSilence (s : State) (i : FrameId) :
    frameOf (countSilence s) i = frameOf (endGrants .portSilent s (silentSlots s)) i := by
  unfold countSilence
  dsimp only
  split <;> rfl

theorem frameOf_periodStartTaken : frameOf (periodStartTaken first s) i =
    frameOf (endGrants .portSilent (evaluateCycle (expiredState first s))
      (silentSlots (evaluateCycle (expiredState first s)))) i := by
  rw [← frameOf_countSilence, ← periodCounted_eq, periodStartTaken_eq, planAtPeriodStart_eq, beforePlan,
    takeSnapshot_eq]
  simp only [frameOf, State.nextDraw_pool, State.setPlanner_pool]

/-- R51, R57, R82: a period start ages and counts a frame, reports it if it expires, and may write a
cause. -/
theorem frameOf_periodStartTaken_withCause : ∃ c, frameOf (periodStartTaken first s) i =
    withCause c (if expires (countedState first s) i = true then
      reportedFrame (expiryOutcome s i) (if first then 0 else s.planner.period + 1)
        (frameOf (countedState first s) i)
      else frameOf (countedState first s) i) := by
  obtain ⟨silent, last⟩ := frameOf_endGrants_withCause .portSilent
    (silentSlots (evaluateCycle (expiredState first s))) (evaluateCycle (expiredState first s)) i
  obtain ⟨early, before⟩ := frameOf_endGrants_withCause .portSilent
    (silencedFirst (countedState first s)) (countedState first s) i
  obtain ⟨mid, ended⟩ := frameOf_endGrants_withCause .requestEnd
    (expiringSlots (silencedCounted first s)) (silencedCounted first s) i
  rw [← frameOf_periodStartTaken, frameOf_evaluateCycle, expiredState, frameOf_expireRequests,
    expires_silencedCounted, expiryOutcome_silencedCounted, silencedCounted_period, ended,
    silencedCounted, before] at last
  rw [withCause_absorbs] at last
  exact ⟨silent, last⟩

/-- R57: the result fields of a counted frame. -/
theorem result_countedState (slot : heldSlot s i = some k) :
    (frameOf (countedState first s) i).result =
      if (grantOf s k).state = .running then countedResult (frameOf s i).result
      else (frameOf s i).result := by
  have counted := frameOf_countSources (raiseOccurrence .periodStart (advancePeriod first s)) i
  rw [show heldSlot (raiseOccurrence .periodStart (advancePeriod first s)) i = some k from slot] at counted
  rw [frameOf_countedState, (agedFrame_keeps _).2, counted]
  by_cases running : (grantOf s k).state = .running
  · have runs : isGrantRunning (raiseOccurrence .periodStart (advancePeriod first s)) k = true :=
      beq_iff_eq.mpr running
    simp only [runs, if_true, if_pos running]
    rfl
  · have still : ¬isGrantRunning (raiseOccurrence .periodStart (advancePeriod first s)) k = true :=
      fun h => running (beq_iff_eq.mp h)
    simp only [still, if_neg running]
    rfl

/-- R79, R82: a request held for no slot is aged, and reported if it expires. -/
theorem frameOf_countedState_unslotted (none : heldSlot s i = none) :
    frameOf (countedState first s) i = agedFrame (frameOf s i) := by
  have counted := frameOf_countSources (raiseOccurrence .periodStart (advancePeriod first s)) i
  rw [show heldSlot (raiseOccurrence .periodStart (advancePeriod first s)) i = Option.none from none]
    at counted
  rw [frameOf_countedState, counted]
  rfl

theorem heldSlot_expiredState : heldSlot (evaluateCycle (expiredState first s)) i =
    if expires (countedState first s) i = true then none else heldSlot s i := by
  rw [heldSlot_of_frame _ _ i (frameOf_evaluateCycle _ i), expiredState, heldSlot_expireRequests,
    expires_silencedCounted, heldSlot_silencedCounted]

/-- R82: a request that expires, or one held for no slot, is not reached by the silence. -/
theorem frameOf_periodStartTaken_unheld
    (out : expires (countedState first s) i = true ∨ heldSlot s i = none) :
    frameOf (periodStartTaken first s) i = frameOf (expiredState first s) i := by
  rw [frameOf_periodStartTaken, frameOf_endGrants_other, frameOf_evaluateCycle]
  intro k held
  rw [heldSlot_expiredState] at held
  rcases out with due | none
  · rw [if_pos due] at held
    cases held
  · rw [none, ite_self] at held
    cases held

/-- R79, R82: a request held for no slot is aged, and reported if it expires. -/
theorem frameOf_periodStartTaken_unslotted (none : heldSlot s i = none) :
    frameOf (periodStartTaken first s) i =
      if expires (countedState first s) i = true then
        reportedFrame (expiryOutcome s i) (if first then 0 else s.planner.period + 1)
          (agedFrame (frameOf s i))
      else agedFrame (frameOf s i) := by
  have unslotted {k : SlotId} {p : Prop} (x : State) (same : heldSlot x i = heldSlot s i)
      (held : heldSlot x i = some k) : p := by
    rw [same, none] at held
    cases held
  rw [frameOf_periodStartTaken_unheld (.inr none), expiredState, frameOf_expireRequests,
    expires_silencedCounted, expiryOutcome_silencedCounted, silencedCounted_period,
    frameOf_endGrants_other _ _ _ _ fun k held => unslotted _ heldSlot_silencedCounted held,
    silencedCounted,
    frameOf_endGrants_other _ _ _ _ fun k held => unslotted _ (heldSlot_countedState first s i) held,
    frameOf_countedState_unslotted none]

/-- R51, R82: the result fields of an expiring request alone for its slot. -/
theorem result_expired (due : expires (countedState first s) i = true) (alone : holdsAlone s i k) :
    (frameOf (periodStartTaken first s) i).result =
      let counted := (frameOf (countedState first s) i).result
      let outcome (r : Result) : Result :=
        { r with outcome := expiryOutcome s i, endPeriod := if first then 0 else s.planner.period + 1 }
      let cause : EndCause :=
        if k ∈ silencedFirst (countedState first s) then .portSilent else .requestEnd
      if (grantOf s k).state = .running then outcome { counted with endCause := cause }
      else outcome counted := by
  have held : heldFor (countedState first s) k = some i :=
    (heldFor_countedState first s k).trans alone.heldFor_eq
  have heldU : heldFor (silencedCounted first s) k = some i :=
    (silencedCounted_kept.heldFor_eq k).trans held
  have early := result_endGrants .portSilent (silencedFirst (countedState first s)) _ k i held
  have late := result_endGrants .requestEnd (expiringSlots (silencedCounted first s)) _ k i heldU
  have ends : k ∈ expiringSlots (silencedCounted first s) := (mem_expiringSlots _ k).mpr
    ⟨i, expires_silencedCounted.trans due, heldSlot_silencedCounted.trans alone.1⟩
  have grantU := grantOf_endGrants .portSilent (silencedFirst (countedState first s))
    (countedState first s) k
  have runs : isGrantRunning (countedState first s) k = true ↔ (grantOf s k).state = .running := by
    rw [isGrantRunning, beq_iff_eq, grantOf_countedState]
    refine ⟨countedGrant_running, fun running => ?_⟩
    simp [countedGrant, running]
  rw [frameOf_periodStartTaken_unheld (.inl due), expiredState, frameOf_expireRequests,
    expires_silencedCounted, expiryOutcome_silencedCounted, silencedCounted_period, if_pos due]
  dsimp only [reportedFrame]
  rw [late, silencedCounted, early]
  rw [← silencedCounted] at grantU ⊢
  by_cases running : (grantOf s k).state = .running
  · have run := runs.mpr running
    by_cases mem : k ∈ silencedFirst (countedState first s)
    · rw [if_pos ⟨mem, run⟩] at grantU
      have stopped : isGrantRunning (silencedCounted first s) k = false := by
        have := endedGrant_not_running (recordOf (countedState first s) k).minRest
          (heldFor (countedState first s) k).isSome (grantOf (countedState first s) k)
        rw [isGrantRunning, grantU]
        simpa using this
      simp [running, run, mem, stopped]
    · rw [if_neg fun h => mem h.1] at grantU
      have still : isGrantRunning (silencedCounted first s) k = true := by
        rw [isGrantRunning, grantU]
        exact run
      simp [running, mem, still, ends]
  · have still : ¬isGrantRunning (countedState first s) k = true := fun h => running (runs.mp h)
    rw [if_neg fun h => still h.2] at grantU
    have stopped : ¬isGrantRunning (silencedCounted first s) k = true := by
      rw [isGrantRunning, grantU]
      exact still
    simp [running, still, stopped]

end Stages

end Sys2Proof.Machine
end

section
/-! SUPPORT. What a period start does to the requests, the sources and the Disinfection Cycle (R51, R52, R57,
R79, R82, R130, R131). -/

namespace Sys2Proof.Machine

theorem exec_periodStart_taken {s : State} (running : isRunning s = true)
    (timer : s.planner.timerRunning = true) (last : s.planner.secondsRemaining = 1)
    (loud : holderFallsSilent s = false) :
    exec .periodStart s = .next (periodStartTaken false s) := by
  show execPeriodStart s = _
  rw [execPeriodStart, if_pos (by simp [running, timer, last]), periodStart, loud]
  rfl

/-! ## Requests -/

section Requests
variable {first : Bool} {s : State} {i : FrameId} {age : Nat}

theorem agedFrame_held {fr : Frame} (held : fr.state = .held age) :
    agedFrame fr = { fr with state := .held (min 65535 (age + 1)) } := by
  simp [agedFrame, held, saturate, Nat.min_comm]

theorem state_countedState_held (held : (frameOf s i).state = .held age) :
    (frameOf (countedState first s) i).state = .held (min 65535 (age + 1)) := by
  rw [state_countedState, agedFrame_held held]

/-- R79, R82: the requests that expire, by the number of their kind. -/
theorem expires_countedState_held (held : (frameOf s i).state = .held age) :
    expires (countedState first s) i = true ↔
      (((frameOf s i).request.kind = 1 ∧ (frameOf s i).request.span ≠ 0) ∨
        (frameOf s i).request.kind = 3 ∨ (frameOf s i).request.kind = 4) ∧
      (frameOf s i).request.span.toNat ≤ min 65535 (age + 1) := by
  have reached : spanReached (frameOf (countedState first s) i) =
      decide ((frameOf s i).request.span.toNat ≤ min 65535 (age + 1)) := by
    unfold spanReached
    rw [state_countedState_held held, request_countedState]
  unfold expires kindOf
  rw [reached, request_countedState]
  generalize (frameOf s i).request.kind = kind
  unfold requestKind
  by_cases heat : kind = 1
  · subst heat
    simp
  by_cases standing : kind = 2
  · subst standing
    simp
  by_cases reserve : kind = 3
  · subst reserve
    simp
  by_cases comfort : kind = 4
  · subst comfort
    simp
  simp only [if_neg heat, if_neg standing, if_neg reserve, if_neg comfort]
  split <;> simp_all

theorem result_countedState_outcome :
    (frameOf (countedState first s) i).result.outcome = (frameOf s i).result.outcome := by
  rw [frameOf_countedState, (agedFrame_keeps _).2, frameOf_countSources]
  split
  · rfl
  · split <;> rfl

theorem request_periodStartTaken :
    (frameOf (periodStartTaken first s) i).request = (frameOf s i).request := by
  obtain ⟨cause, frame⟩ := frameOf_periodStartTaken_withCause (first := first) (s := s) (i := i)
  rw [frame, withCause_request]
  split
  · rw [reportedFrame, request_countedState]
  · exact request_countedState first s i

theorem expiryOutcome_heat (heat : (frameOf s i).request.kind = 1) :
    expiryOutcome s i = .expired := by
  simp [expiryOutcome, kindOf, heat, requestKind]

theorem expiryOutcome_other (other : (frameOf s i).request.kind ≠ 1) : expiryOutcome s i = .done := by
  unfold expiryOutcome kindOf requestKind
  rw [if_neg other, if_neg]
  split
  · simp
  · split
    · simp
    · split
      · simp
      · split <;> simp

/-- R79: a RESERVE or COMFORT request is held for no slot. -/
theorem heldSlot_band (band : (frameOf s i).request.kind = 3 ∨ (frameOf s i).request.kind = 4) :
    heldSlot s i = none := by
  rcases band with kind | kind <;> simp [heldSlot, kindOf, kind, requestKind, kindNamesSource]

theorem silenced_of_silencedFirst {k : SlotId} (mem : k ∈ silencedFirst (countedState first s)) :
    silenced s (periodStartTaken first s) k := by
  have silent : ownerFallsSilent (countedState first s) k = true := by
    rw [silencedFirst, List.mem_filter, Bool.and_eq_true] at mem
    exact mem.2.1
  rw [ownerFallsSilent_of_ports s _ k (recordOf_countedState first s k) (countedState_ports first s),
    ownerFallsSilent] at silent
  cases owner : (recordOf s k).owner with
  | none => simp [owner] at silent
  | some p =>
    have falls : fallsSilent s p = true := by simpa [owner] using silent
    have active : (portOf s p).active = true := by
      rw [fallsSilent, Bool.and_eq_true, Bool.and_eq_true] at falls
      exact falls.1.1
    exact ⟨p, owner, active, by rw [active_periodStartTaken, falls]; simp⟩

/-- R51, R82: the result fields of a HEAT request that expires, alone for its slot. -/
theorem result_expiredHeat {k : SlotId} (due : expires (countedState false s) i = true)
    (heat : (frameOf s i).request.kind = 1) (alone : holdsAlone s i k) :
    let expired (result : Result) : Result :=
      { result with outcome := .expired, endPeriod := s.planner.period + 1 }
    ((grantOf s k).state ≠ .running →
      (frameOf (periodStartTaken false s) i).result = expired (frameOf s i).result) ∧
    ((grantOf s k).state = .running →
      ∃ cause, (frameOf (periodStartTaken false s) i).result =
          expired { countedResult (frameOf s i).result with endCause := cause } ∧
        (cause = .requestEnd ∨ (cause = .portSilent ∧ silenced s (periodStartTaken false s) k))) := by
  intro expired
  have result := result_expired due alone
  rw [expiryOutcome_heat heat, result_countedState alone.1] at result
  simp only [Bool.false_eq_true, if_false] at result
  refine ⟨fun still => ?_, fun running => ?_⟩
  · rw [if_neg still, if_neg still] at result
    exact result
  · rw [if_pos running, if_pos running] at result
    by_cases mem : k ∈ silencedFirst (countedState false s)
    · rw [if_pos mem] at result
      exact ⟨.portSilent, result, .inr ⟨rfl, silenced_of_silencedFirst mem⟩⟩
    · rw [if_neg mem] at result
      exact ⟨.requestEnd, result, .inl rfl⟩

/-- Settles O34, by whether the request's age has reached its span. -/
theorem periodStartExpiresRequests : Obligations.PeriodStartExpiresRequests := by
  intro s running timer last loud
  refine ⟨_, exec_periodStart_taken running timer last loud, fun i age held => ?_⟩
  obtain ⟨cause, frame⟩ := frameOf_periodStartTaken_withCause (first := false) (s := s) (i := i)
  have expiry := expires_countedState_held (first := false) held
  intro r due
  refine ⟨request_periodStartTaken, fun heat span reached => ?_, fun band reached => ?_,
    fun stays => ?_⟩
  · have ends := expiry.mpr ⟨.inl ⟨heat, span⟩, reached⟩
    rw [if_pos ends] at frame
    refine ⟨by rw [frame, withCause_state, reportedFrame],
      by rw [frame, withCause_outcome, reportedFrame]; exact expiryOutcome_heat heat,
      by rw [frame, withCause_endPeriod, reportedFrame]; rfl,
      fun k alone => result_expiredHeat ends heat alone⟩
  · have ends := expiry.mpr ⟨.inr band, reached⟩
    have unslotted := frameOf_periodStartTaken_unslotted (first := false) (heldSlot_band band)
    have other : (frameOf s i).request.kind ≠ 1 := by
      rcases band with kind | kind <;> rw [show (frameOf s i).request.kind = _ from kind] <;> decide
    rw [if_pos ends, expiryOutcome_other other] at unslotted
    rw [unslotted]
    refine ⟨rfl, ?_⟩
    dsimp only [reportedFrame]
    rw [(agedFrame_keeps _).2]
    rfl
  · have stands : ¬expires (countedState false s) i = true := by
      rw [expiry]
      rintro ⟨kinds, reached⟩
      rcases stays with kind | ⟨kind, zero⟩ | notDue
      · rw [show (frameOf s i).request.kind = 2 from kind] at kinds
        simp at kinds
      · rw [show (frameOf s i).request.kind = 1 from kind] at kinds
        have zero : (frameOf s i).request.span = 0 := zero
        simp [zero] at kinds
      · exact notDue reached
    rw [if_neg stands] at frame
    rw [frame, withCause_state, withCause_outcome]
    exact ⟨state_countedState_held held, result_countedState_outcome⟩

end Requests

/-! ## Sources -/

section Sources
variable {first : Bool} {s : State} {k : SlotId}

theorem countedGrant_of_running {held : Bool} {g : GrantRecord} (running : g.state = .running) :
    countedGrant held g = countedRun g := by
  simp [countedGrant, countedRun, running, saturate, Nat.min_comm]

theorem countedGrant_of_resting_long {held : Bool} {g : GrantRecord} (resting : g.state = .resting)
    (long : 1 < g.restCount) : countedGrant held g = { g with restCount := g.restCount - 1 } := by
  have more : g.restCount - 1 ≠ 0 := by omega
  simp [countedGrant, resting, more]

theorem countedGrant_of_resting_short {held : Bool} {g : GrantRecord} (resting : g.state = .resting)
    (short : g.restCount ≤ 1) : countedGrant held g =
      { g with state := if held then .waiting else .idle, restCount := 0 } := by
  have over' : g.restCount - 1 = 0 := by omega
  simp [countedGrant, resting, over']

theorem countedGrant_of_still {held : Bool} {g : GrantRecord}
    (still : g.state = .waiting ∨ g.state = .idle ∨ g.state = .unused) : countedGrant held g = g := by
  rcases still with state | state | state <;> simp [countedGrant, state]

theorem grantEnded_runCount (minRest : Nat) (held : Bool) (g : GrantRecord) :
    (grantEnded minRest held g).runCount = g.runCount ∧ (grantEnded minRest held g).rank = g.rank := by
  unfold grantEnded
  split
  · exact ⟨rfl, rfl⟩
  · split <;> exact ⟨rfl, rfl⟩

theorem countedGrant_rank (held : Bool) (g : GrantRecord) : (countedGrant held g).rank = g.rank := by
  unfold countedGrant
  split
  · rfl
  · split <;> rfl
  all_goals rfl

/-- R51, R82, R160: after it is counted, a period start ends or releases a source's grant at most. -/
theorem grantOf_periodStartTaken_cases (first : Bool) (s : State) (k : SlotId) :
    let counted := countedGrant (heldFor s k).isSome (grantOf s k)
    grantOf (periodStartTaken first s) k = counted ∨
      grantOf (periodStartTaken first s) k = { counted with state := .idle } ∨
      ∃ held, grantOf (periodStartTaken first s) k = grantEnded (recordOf s k).minRest held counted := by
  intro counted
  obtain ⟨lapsed, stays⟩ := grantOf_periodStartTaken first s k
  by_cases lapse : ∃ i, heldSlot s i = some k ∧ lapses s i
  · obtain ⟨i, slot, lapse⟩ := lapse
    rw [lapsed i slot lapse]
    split
    · exact .inr (.inr ⟨_, rfl⟩)
    · split
      · exact .inr (.inl rfl)
      · exact .inl rfl
  · rw [stays fun i slot l => lapse ⟨i, slot, l⟩]
    split
    · exact .inr (.inr ⟨_, rfl⟩)
    · exact .inl rfl

theorem periodStartTaken_counts (first : Bool) (s : State) (k : SlotId) :
    (grantOf (periodStartTaken first s) k).runCount =
        (countedGrant (heldFor s k).isSome (grantOf s k)).runCount ∧
      (grantOf (periodStartTaken first s) k).rank = (grantOf s k).rank := by
  rcases grantOf_periodStartTaken_cases first s k with eq | eq | ⟨held, eq⟩ <;> rw [eq]
  · exact ⟨rfl, countedGrant_rank _ _⟩
  · exact ⟨rfl, countedGrant_rank _ _⟩
  · obtain ⟨runs, rank⟩ := grantEnded_runCount (recordOf s k).minRest held
      (countedGrant (heldFor s k).isSome (grantOf s k))
    exact ⟨runs, rank.trans (countedGrant_rank _ _)⟩

theorem recordOf_periodStartTaken (first : Bool) (s : State) (k : SlotId) :
    recordOf (periodStartTaken first s) k = recordOf s k := by
  obtain ⟨_, _, _, _, _, records, _⟩ := periodStartTaken_periodKept first s
  simp only [recordOf, records]

theorem silenced_of_ownerFallsSilent (silent : ownerFallsSilent s k = true) :
    silenced s (periodStartTaken first s) k := by
  rw [ownerFallsSilent] at silent
  cases owner : (recordOf s k).owner with
  | none => simp [owner] at silent
  | some p =>
    have falls : fallsSilent s p = true := by simpa [owner] using silent
    have active : (portOf s p).active = true := by
      rw [fallsSilent, Bool.and_eq_true, Bool.and_eq_true] at falls
      exact falls.1.1
    exact ⟨p, owner, active, by rw [active_periodStartTaken, falls]; simp⟩

/-- R57: the periods-run field of a request held for a slot. -/
theorem periodsRun_periodStartTaken {i : FrameId} (slot : heldSlot s i = some k) :
    (frameOf (periodStartTaken first s) i).result.periodsRun =
      if (grantOf s k).state = .running then min 65535 ((frameOf s i).result.periodsRun + 1)
      else (frameOf s i).result.periodsRun := by
  obtain ⟨cause, frame⟩ := frameOf_periodStartTaken_withCause (first := first) (s := s) (i := i)
  have counted : (frameOf (periodStartTaken first s) i).result.periodsRun =
      (frameOf (countedState first s) i).result.periodsRun := by
    rw [frame, withCause_periodsRun]
    split
    · rw [reportedFrame]
    · rfl
  rw [counted, result_countedState slot]
  split <;> rfl

/-- R51, R52: the record that a period start makes of a source that was not RUNNING. -/
structure StoppedCounted (s : State) (k : SlotId) (g : GrantRecord) : Prop where
  waiting : (grantOf s k).state = .waiting →
    ((∀ i, heldSlot s i = some k → ¬lapses s i) → g = grantOf s k) ∧
    ∀ i, heldSlot s i = some k → lapses s i → g = { grantOf s k with state := .idle }
  restsOn : (grantOf s k).state = .resting → 1 < (grantOf s k).restCount →
    g = { grantOf s k with restCount := (grantOf s k).restCount - 1 }
  rested : (grantOf s k).state = .resting → (grantOf s k).restCount ≤ 1 →
    (heldFor s k = none → g = { grantOf s k with state := .idle, restCount := 0 }) ∧
    (∀ i, heldSlot s i = some k → (∀ i, heldSlot s i = some k → ¬lapses s i) →
      g = { grantOf s k with state := .waiting, restCount := 0 }) ∧
    ∀ i, heldSlot s i = some k → lapses s i →
      g = { grantOf s k with state := .idle, restCount := 0 }
  still : (grantOf s k).state = .idle ∨ (grantOf s k).state = .unused → g = grantOf s k

theorem periodStartTaken_stoppedCounted (first : Bool) (s : State) (k : SlotId) :
    StoppedCounted s k (grantOf (periodStartTaken first s) k) := by
  obtain ⟨lapsed, stays⟩ := grantOf_periodStartTaken first s k
  refine ⟨fun waits => ⟨fun lasts => ?_, fun i slot lapse => ?_⟩, fun rests long => ?_,
    fun rests short => ⟨fun none => ?_, fun i slot lasts => ?_, fun i slot lapse => ?_⟩, fun still => ?_⟩
  · rw [stays lasts, countedGrant_of_still (.inl waits)]
    simp [waits]
  · rw [lapsed i slot lapse, countedGrant_of_still (.inl waits)]
    simp [waits]
  · by_cases lapse : ∃ i, heldSlot s i = some k ∧ lapses s i
    · obtain ⟨i, slot, lapse⟩ := lapse
      rw [lapsed i slot lapse, countedGrant_of_resting_long rests long]
      simp [rests]
    · rw [stays fun i slot l => lapse ⟨i, slot, l⟩, countedGrant_of_resting_long rests long]
      simp [rests]
  · have vacant (i : FrameId) (slot : heldSlot s i = some k) : ¬lapses s i := by
      have some := (heldFor_isSome s k).mpr ⟨i, slot⟩
      simp [none] at some
    rw [stays vacant, countedGrant_of_resting_short rests short]
    simp [none]
  · have some := (heldFor_isSome s k).mpr ⟨i, slot⟩
    rw [stays lasts, countedGrant_of_resting_short rests short]
    simp [some]
  · have some := (heldFor_isSome s k).mpr ⟨i, slot⟩
    rw [lapsed i slot lapse, countedGrant_of_resting_short rests short]
    simp [some]
  · have same := countedGrant_of_still (held := (heldFor s k).isSome) (.inr still)
    by_cases lapse : ∃ i, heldSlot s i = some k ∧ lapses s i
    · obtain ⟨i, slot, lapse⟩ := lapse
      rw [lapsed i slot lapse, same]
      rcases still with state | state <;> simp [state]
    · rw [stays fun i slot l => lapse ⟨i, slot, l⟩, same]
      rcases still with state | state <;> simp [state]

/-- Settles O31, by the state the source was in. -/
theorem periodStartCountsSources : Obligations.PeriodStartCountsSources := by
  intro s running timer last loud
  refine ⟨_, exec_periodStart_taken running timer last loud,
    fun i k slot => periodsRun_periodStartTaken slot, fun k => ?_⟩
  obtain ⟨lapsed, stays⟩ := grantOf_periodStartTaken false s k
  obtain ⟨counts, rank⟩ := periodStartTaken_counts false s k
  have stopped := periodStartTaken_stoppedCounted false s k
  intro outlasts
  refine ⟨recordOf_periodStartTaken false s k, rank, fun runs => ⟨?_, fun lasts heard => ?_,
    fun i slot lapse => ?_⟩, stopped.waiting, stopped.restsOn, stopped.rested, stopped.still⟩
  · rw [counts, countedGrant_of_running runs]
    rfl
  · have speaks : ¬ownerFallsSilent s k = true := fun silent => heard (silenced_of_ownerFallsSilent silent)
    rw [stays lasts, if_neg fun h => speaks h.1, countedGrant_of_running runs]
  · rw [lapsed i slot lapse, countedGrant_of_running runs]
    exact if_pos runs

end Sources

end Sys2Proof.Machine
end

section
/-! SUPPORT. What a period start does to the ports and to the Disinfection Cycle (R130, R131, R159, R160). -/

namespace Sys2Proof.Machine

/-! ## Ports -/

section Ports
variable {first : Bool} {s : State} {p : PortId} {k : SlotId} {i : FrameId}

/-- R159: a port once it has taken a period start. -/
def countedPort (timeout : Nat) (falls : Bool) (port : Port) : Port :=
  { port with active := port.active && !falls, silence := silenceAfter timeout port }

theorem portOf_countSilence (s : State) (p : PortId) : portOf (countSilence s) p =
    countedPort s.ports.timeout (fallsSilent s p) (portOf s p) := by
  have ended : portOf (endGrants .portSilent s ((runningSlots s).filter fun k =>
      ownerFallsSilent s k)) p = portOf s p := by
    simp only [portOf, (endGrants_moved _ _ _).ports_eq]
  unfold countSilence
  dsimp only
  split
  · rw [portOf_raiseOccurrence, portOf_eachPort, ended, countedPort]
  · rw [portOf_eachPort, ended, countedPort]

theorem timeout_countSilence (s : State) : (countSilence s).ports.timeout = s.ports.timeout := by
  have ended (x : List SlotId) : (endGrants .portSilent s x).ports = s.ports :=
    (endGrants_moved _ _ _).ports_eq
  unfold countSilence
  dsimp only
  split <;> rw [← ended] <;> rfl

theorem ports_cycled : (evaluateCycle (expiredState first s)).ports = s.ports := by
  rw [evaluateCycle_ports, expiredState, (expireRequests_moved _).ports_eq, silencedCounted,
    (endGrants_moved _ _ _).ports_eq, countedState_ports]

theorem ports_periodStartTaken (first : Bool) (s : State) :
    (periodStartTaken first s).ports = (countSilence (evaluateCycle (expiredState first s))).ports := by
  rw [periodStartTaken_eq, State.nextDraw_ports, planAtPeriodStart_eq, State.setPlanner_ports, beforePlan,
    takeSnapshot_eq, State.setPlanner_ports, periodCounted_eq]

theorem portOf_periodStartTaken : portOf (periodStartTaken first s) p =
    countedPort s.ports.timeout (fallsSilent s p) (portOf s p) := by
  have taken := portOf_countSilence (evaluateCycle (expiredState first s)) p
  rw [fallsSilent_of_ports ports_cycled, ports_cycled] at taken
  simp only [portOf, ports_periodStartTaken, ports_cycled] at taken ⊢
  exact taken

theorem timeout_periodStartTaken : (periodStartTaken first s).ports.timeout = s.ports.timeout := by
  rw [ports_periodStartTaken, timeout_countSilence, ports_cycled]

/-- R159: a SILENT port, or any with the timeout at 0, stands. -/
theorem portOf_periodStartTaken_stands (still : (portOf s p).active = false ∨ s.ports.timeout = 0) :
    portOf (periodStartTaken first s) p = portOf s p := by
  rw [portOf_periodStartTaken, countedPort, fallsSilent, silenceAfter]
  generalize portOf s p = port at still ⊢
  obtain ⟨active, silence⟩ := port
  rcases still with silent | zero
  · obtain rfl : active = false := silent
    simp
  · simp [zero]

theorem portOf_periodStartTaken_counts (active : (portOf s p).active = true)
    (timeout : 1 ≤ s.ports.timeout) : portOf (periodStartTaken first s) p =
      { portOf s p with
        silence := min 255 ((portOf s p).silence + 1)
        active := decide (min 255 ((portOf s p).silence + 1) < s.ports.timeout) } := by
  have after : silenceAfter s.ports.timeout (portOf s p) = min 255 ((portOf s p).silence + 1) := by
    simp [silenceAfter, active, timeout]
  have falls : fallsSilent s p =
      decide (s.ports.timeout ≤ min 255 ((portOf s p).silence + 1)) := by
    simp only [fallsSilent, after, active, timeout, decide_true, Bool.and_true, Bool.true_and]
  rw [portOf_periodStartTaken, countedPort, after, falls, active, Bool.true_and, ← decide_not]
  simp only [Nat.not_le]

theorem fallsSilent_of_active (before : (portOf s p).active = true)
    (after : (portOf (periodStartTaken first s) p).active = false) : fallsSilent s p = true := by
  rw [active_periodStartTaken, before] at after
  simpa using after

/-! ## The alerts -/

theorem mem_pendingOf_countSilence (s : State) (q : PortId) (j : AlertKind) :
    j ∈ pendingOf (countSilence s) q ↔ j ∈ pendingOf s q ∨
      (j = .portSilent ∧ subscribed s q .portSilent = true ∧ ∃ p, fallsSilent s p = true) := by
  have moved := endGrants_moved .portSilent s (silentSlots s)
  have pend : pendingOf (endGrants .portSilent s (silentSlots s)) q = pendingOf s q := by
    simp only [pendingOf, moved.alerts_eq]
  have mask : subscribed (endGrants .portSilent s (silentSlots s)) q .portSilent =
      subscribed s q .portSilent := by simp only [subscribed, moved.store_eq]
  have ports (x : State) (f : PortId → Port → Port) : pendingOf (eachPort x f) q = pendingOf x q ∧
      subscribed (eachPort x f) q .portSilent = subscribed x q .portSilent := ⟨rfl, rfl⟩
  unfold countSilence
  dsimp only
  split
  · rename_i some
    have some : ∃ p, fallsSilent s p = true := by simpa using some
    rw [mem_pendingOf_raiseOccurrence, (ports _ _).1, (ports _ _).2, ← silentSlots, pend, mask]
    exact or_congr_right (and_congr_right fun _ => ⟨fun sub => ⟨sub, some⟩, And.left⟩)
  · rename_i no
    rw [(ports _ _).1, ← silentSlots, pend]
    refine ⟨.inl, fun now => now.elim id ?_⟩
    rintro ⟨-, -, some⟩
    exact absurd (by simpa using some) no

theorem pendingOf_periodStartTaken (first : Bool) (s : State) (q : PortId) :
    pendingOf (periodStartTaken first s) q =
      pendingOf (countSilence (evaluateCycle (expiredState first s))) q := by
  have same : (periodStartTaken first s).alerts =
      (countSilence (evaluateCycle (expiredState first s))).alerts := by
    rw [periodStartTaken_eq, State.nextDraw_alerts, planAtPeriodStart_eq, State.setPlanner_alerts,
      beforePlan, takeSnapshot_eq, State.setPlanner_alerts, periodCounted_eq]
  simp only [pendingOf, same]

theorem expiredState_periodKept (first : Bool) (s : State) : PeriodKept s (expiredState first s) :=
  (countedState_kept first s).trans ((endGrants_moved _ _ _).periodKept.trans
    (expireRequests_moved _).periodKept)

theorem subscribed_of_periodKept {t : State} (kept : PeriodKept s t) (q : PortId) (j : AlertKind) :
    subscribed t q j = subscribed s q j := by
  obtain ⟨_, _, _, _, store, _⟩ := kept
  simp only [subscribed, store]

theorem portSilent_raised (falls : fallsSilent s p = true) (q : PortId)
    (mask : subscribed s q .portSilent = true) :
    .portSilent ∈ pendingOf (periodStartTaken first s) q := by
  have kept := (expiredState_periodKept first s).trans (evaluateCycle_periodKept _)
  rw [pendingOf_periodStartTaken, mem_pendingOf_countSilence, subscribed_of_periodKept kept]
  exact .inr ⟨rfl, mask, p, (fallsSilent_of_ports ports_cycled p).trans falls⟩

/-! ## The sources of a port that falls silent -/

theorem ownerFallsSilent_of_falls (owner : (recordOf s k).owner = some p)
    (falls : fallsSilent s p = true) : ownerFallsSilent s k = true := by
  simp [ownerFallsSilent, owner, falls]

theorem not_expires_of_lasts (lasts : ∀ i, heldSlot s i = some k → ¬lapses s i)
    (slot : heldSlot s i = some k) : ¬expires (countedState first s) i = true := fun due =>
  lasts i slot ((expires_countedState first s i k slot).mp due)

theorem not_mem_silencedFirst (lasts : ∀ i, heldSlot s i = some k → ¬lapses s i) :
    k ∉ silencedFirst (countedState first s) := by
  intro mem
  rw [silencedFirst, List.mem_filter, Bool.and_eq_true, heldFor_countedState] at mem
  have due := mem.2.2
  cases held : heldFor s k with
  | none => simp [held] at due
  | some i =>
    have expires : expires (countedState first s) i = true := by
      simp only [held, Bool.and_eq_true] at due
      exact due.1
    exact not_expires_of_lasts lasts (heldSlot_of_heldFor s k i held) expires

theorem not_mem_expiringSlots (lasts : ∀ i, heldSlot s i = some k → ¬lapses s i) :
    k ∉ expiringSlots (silencedCounted first s) := by
  rw [mem_expiringSlots]
  rintro ⟨i, due, slot⟩
  rw [heldSlot_silencedCounted] at slot
  rw [expires_silencedCounted] at due
  exact not_expires_of_lasts lasts slot due

/-- R51, R161: a RUNNING source whose request stays held is counted, and nothing else, before the ports are
looked at. -/
theorem grantOf_expiredState (running : (grantOf s k).state = .running)
    (lasts : ∀ i, heldSlot s i = some k → ¬lapses s i) :
    grantOf (expiredState first s) k = countedRun (grantOf s k) := by
  have noExpiry := mt (mem_expiringSlots (silencedCounted first s) k).mpr (not_mem_expiringSlots lasts)
  rw [expiredState, grantOf_expireRequests, if_neg noExpiry, silencedCounted, grantOf_endGrants,
    if_neg fun h => not_mem_silencedFirst lasts h.1, grantOf_countedState,
    countedGrant_of_running running]

theorem ownerFallsSilent_cycled : ownerFallsSilent (evaluateCycle (expiredState first s)) k =
    ownerFallsSilent s k := by
  obtain ⟨_, _, _, _, _, records, _⟩ :=
    (expiredState_periodKept first s).trans (evaluateCycle_periodKept _)
  exact ownerFallsSilent_of_ports s _ k (by simp only [recordOf, records]) ports_cycled

/-- R57, R160: the request of a source that its port's silence ends stays held, counted, with the cause. -/
theorem heldOn_silenced (running : (grantOf s k).state = .running)
    (lasts : ∀ i, heldSlot s i = some k → ¬lapses s i) (silent : ownerFallsSilent s k = true)
    (alone : holdsAlone s i k) : isHeld (periodStartTaken first s) i = true ∧
      (frameOf (periodStartTaken first s) i).request = (frameOf s i).request ∧
      (frameOf (periodStartTaken first s) i).result =
        { countedResult (frameOf s i).result with endCause := .portSilent } := by
  have stands := not_expires_of_lasts (first := first) lasts alone.1
  obtain ⟨cause, frame⟩ := frameOf_periodStartTaken_withCause (first := first) (s := s) (i := i)
  obtain ⟨age, held⟩ := (isHeld_iff s i).mp (heldSlot_held s i k alone.1).1
  rw [if_neg stands] at frame
  refine ⟨(isHeld_iff _ i).mpr ⟨_, by rw [frame, withCause_state]; exact state_countedState_held held⟩,
    request_periodStartTaken, ?_⟩
  have slots (j : FrameId) : heldSlot (evaluateCycle (expiredState first s)) j = some k → j = i := by
    rw [heldSlot_expiredState]
    split
    · exact nofun
    · exact alone.2 j
  have alone' : holdsAlone (evaluateCycle (expiredState first s)) i k :=
    ⟨by rw [heldSlot_expiredState, if_neg stands, alone.1], slots⟩
  have runs : isGrantRunning (evaluateCycle (expiredState first s)) k = true := by
    rw [isGrantRunning, grantOf_evaluateCycle, grantOf_expiredState running lasts]
    exact beq_iff_eq.mpr running
  have ends : k ∈ silentSlots (evaluateCycle (expiredState first s)) := by
    rw [silentSlots, List.mem_filter]
    exact ⟨(mem_runningSlots _ k).mpr runs, ownerFallsSilent_cycled.trans silent⟩
  have countedHeld := (heldFor_countedState first s k).trans alone.heldFor_eq
  have earlyHeld := ((silencedCounted_kept (first := first) (s := s)).heldFor_eq k).trans countedHeld
  rw [frameOf_periodStartTaken, result_endGrants _ _ _ k i alone'.heldFor_eq, if_pos ⟨ends, runs⟩,
    frameOf_evaluateCycle, expiredState, frameOf_expireRequests, expires_silencedCounted,
    if_neg stands, result_endGrants _ _ _ k i earlyHeld,
    if_neg fun h => not_mem_expiringSlots lasts h.1, silencedCounted,
    result_endGrants _ _ _ k i countedHeld, if_neg fun h => not_mem_silencedFirst lasts h.1,
    result_countedState alone.1, if_pos running]

/-- Settles O32, by whether the port counts. -/
theorem periodStartCountsSilence : Obligations.PeriodStartCountsSilence := by
  intro s running timer last loud
  refine ⟨_, exec_periodStart_taken running timer last loud, timeout_periodStartTaken, fun p =>
    ⟨portOf_periodStartTaken_stands, portOf_periodStartTaken_counts, fun active silent => ?_⟩⟩
  have falls := fallsSilent_of_active active silent
  refine ⟨fun k owner => ?_, fun q mask => portSilent_raised falls q mask⟩
  have ends := ownerFallsSilent_of_falls owner falls
  refine ⟨fun runs => ?_, fun runs lasts => ⟨?_, fun i alone => heldOn_silenced runs lasts ends alone⟩⟩
  · have := (periodStartTaken_running runs).2
    rw [ends] at this
    cases this
  · rw [(grantOf_periodStartTaken false s k).2 lasts, countedGrant_of_running runs]
    exact if_pos ⟨ends, runs⟩

end Ports

/-! ## The Disinfection Cycle -/

section Cycle
variable {first : Bool} {s : State}

theorem cycle_expiredState (first : Bool) (s : State) : (expiredState first s).cycle = s.cycle := by
  rw [expiredState, (expireRequests_moved _).cycle_eq, silencedCounted, (endGrants_moved _ _ _).cycle_eq,
    countedState, (ageRequests_moved _).cycle_eq, (countSources_moved _).cycle_eq]
  rfl

theorem cycleEvaluated_congr {s t : State} (cycle : t.cycle = s.cycle) (model : t.model = s.model) :
    cycleEvaluated t = cycleEvaluated s := by
  have zone : zoneCheck t = zoneCheck s := by simp only [zoneCheck, cycle, model]
  have hold : holdAfterZone t = holdAfterZone s := by simp only [holdAfterZone, zone, cycle]
  simp only [cycleEvaluated, hold, cycle]

theorem cycleEvaluated_expiredState (first : Bool) (s : State) :
    cycleEvaluated (expiredState first s) = cycleEvaluated s := by
  obtain ⟨_, _, model, _⟩ := expiredState_periodKept first s
  exact cycleEvaluated_congr (cycle_expiredState first s) model

theorem cycle_evaluateCycle (s : State) : (evaluateCycle s).cycle = (cycleEvaluated s).1 := by
  rw [evaluateCycle_eq]
  rfl

theorem cycle_periodStartTaken (first : Bool) (s : State) :
    (periodStartTaken first s).cycle = (cycleEvaluated s).1 := by
  obtain ⟨u, moved, eq⟩ := countSilence_eq (evaluateCycle (expiredState first s))
  rw [periodStartTaken_eq, State.nextDraw_cycle, planAtPeriodStart_eq, State.setPlanner_cycle, beforePlan,
    takeSnapshot_eq, State.setPlanner_cycle, periodCounted_eq, eq, State.setAlerts_cycle,
    State.setPorts_cycle, moved.cycle_eq, cycle_evaluateCycle, cycleEvaluated_expiredState]

theorem zoneCheck_iff (s : State) : zoneCheck s = true ↔ s.model.state ≠ .none ∧
    ∀ i : LayerId, s.cycle.floor ≤ i.val → s.cycle.tDis ≤ s.model.layers[i] := by
  simp only [zoneCheck, comfortLayers, allLayers, Bool.and_eq_true, bne_iff_ne, List.all_eq_true,
    List.mem_filter, List.mem_finRange, true_and, decide_eq_true_eq]

theorem holdAfterZone_eq {holdNow : Nat}
    (holds : (s.model.state ≠ .none ∧
        ∀ i : LayerId, s.cycle.floor ≤ i.val → s.cycle.tDis ≤ s.model.layers[i]) →
      holdNow = min 255 (s.cycle.holdCount + 1))
    (fails : ¬(s.model.state ≠ .none ∧
        ∀ i : LayerId, s.cycle.floor ≤ i.val → s.cycle.tDis ≤ s.model.layers[i]) →
      holdNow = 0) : holdAfterZone s = holdNow := by
  rw [← zoneCheck_iff] at holds fails
  rw [holdAfterZone]
  split
  · rename_i zone
    exact (holds zone).symm
  · rename_i zone
    exact (fails zone).symm

/-- R131: a deadline that is reached raises DISINFECT-FAILED. -/
theorem disinfectFailed_raised (reached : (cycleEvaluated s).2 = true) (q : PortId)
    (mask : subscribed s q .disinfectFailed = true) :
    .disinfectFailed ∈ pendingOf (periodStartTaken first s) q := by
  have kept := expiredState_periodKept first s
  have raised : .disinfectFailed ∈ pendingOf (evaluateCycle (expiredState first s)) q := by
    unfold evaluateCycle
    dsimp only
    rw [cycleEvaluated_expiredState, if_pos reached, mem_pendingOf_raiseOccurrence]
    exact .inr ⟨rfl, (subscribed_of_periodKept (kept.trans ((setCycle_periodKept _ _).trans
      (followConditions_periodKept _ _))) q _).trans mask⟩
  rw [pendingOf_periodStartTaken, mem_pendingOf_countSilence]
  exact .inl raised

/-- Settles O33, by the state of the cycle. -/
theorem periodStartEvaluatesCycle : Obligations.PeriodStartEvaluatesCycle := by
  intro s running timer last loud
  refine ⟨_, exec_periodStart_taken running timer last loud, fun holdNow holds fails => ?_⟩
  have hold := holdAfterZone_eq holds fails
  rw [cycle_periodStartTaken]
  have raised := @disinfectFailed_raised false s
  generalize periodStartTaken false s = t at raised ⊢
  refine ⟨fun off => ?_, fun on reached => ?_, fun counting short => ?_, fun due short => ⟨?_, ?_⟩⟩
  · simp [cycleEvaluated, off]
  · cases state : s.cycle.state with
    | off => exact absurd state on
    | counting => simp [cycleEvaluated, state, hold, reached, cycleSuccess]
    | due => simp [cycleEvaluated, state, hold, reached, cycleSuccess]
  · have not : ¬s.cycle.hold ≤ holdNow := by omega
    simp only [cycleEvaluated, counting, hold, if_neg not, cycleCounted, saturate, Nat.min_comm]
    split <;> simp_all
  · have not : ¬s.cycle.hold ≤ holdNow := by omega
    simp only [cycleEvaluated, due, hold, if_neg not, cycleDueCounted, deadlineReached, saturate,
      Nat.min_comm]
    by_cases deadline : s.cycle.deadline ≤ min (s.cycle.sinceDue + 1) 65535 <;> simp [deadline]
  · have not : ¬s.cycle.hold ≤ holdNow := by omega
    intro deadline
    refine raised ?_
    simp only [cycleEvaluated, due, hold, if_neg not, deadlineReached, saturate]
    refine decide_eq_true ?_
    omega

end Cycle

end Sys2Proof.Machine
end

section
/-! SUPPORT. What a period start leaves in the planner and raises (R88, R89, R93, R95), and the end of setup
(R90, R174, R175): the scan that begins, its completion if it has nothing to read, the period start. -/

namespace Sys2Proof.Machine

/-! ## Occurrences stay pending -/

/-- R142: no kind that only occurs leaves a pending set, and no held SETTINGS-LOST is released. -/
structure OccurrencesStay (s t : State) : Prop where
  pends : ∀ k q, levelCapable k = false → k ∈ pendingOf s q → k ∈ pendingOf t q
  held : t.alerts.heldLost = s.alerts.heldLost

namespace OccurrencesStay
variable {s t u : State}

theorem of_alerts (alerts : t.alerts = s.alerts) : OccurrencesStay s t :=
  ⟨fun k q _ pends => by simpa only [pendingOf, alerts] using pends, by rw [alerts]⟩

theorem trans (h : OccurrencesStay s t) (g : OccurrencesStay t u) : OccurrencesStay s u :=
  ⟨fun k q edgeOnly pends => g.pends k q edgeOnly (h.pends k q edgeOnly pends), g.held.trans h.held⟩

theorem raise {j : AlertKind} (other : j ≠ .settingsLost) (s : State) :
    OccurrencesStay s (raiseOccurrence j s) :=
  ⟨fun k q _ pends => (mem_pendingOf_raiseOccurrence j s q k).mpr (.inl pends),
    heldLost_raiseOccurrence_other s other⟩

theorem follow (before s : State) : OccurrencesStay s (followConditions before s) :=
  ⟨fun k q edgeOnly pends =>
    (mem_pendingOf_followConditions_edgeOnly before s q k edgeOnly).mpr pends, rfl⟩

theorem moved (h : SourcesMoved s t) : OccurrencesStay s t := of_alerts h.alerts_eq

end OccurrencesStay

theorem evaluateCycle_occurrencesStay (s : State) : OccurrencesStay s (evaluateCycle s) := by
  have set : OccurrencesStay s (s.setCycle (cycleEvaluated s).1) := .of_alerts rfl
  unfold evaluateCycle
  dsimp only
  split
  · exact set.trans ((OccurrencesStay.follow _ _).trans (.raise (by decide) _))
  · exact set.trans (.follow _ _)

theorem countSilence_occurrencesStay (s : State) : OccurrencesStay s (countSilence s) := by
  have ended : OccurrencesStay s (endGrants .portSilent s (silentSlots s)) :=
    .moved (endGrants_moved _ _ _)
  have counted (f : PortId → Port → Port) :
      OccurrencesStay s (eachPort (endGrants .portSilent s (silentSlots s)) f) :=
    ended.trans (.of_alerts rfl)
  unfold countSilence
  dsimp only
  split
  · exact (counted _).trans (.raise (by decide) _)
  · exact counted _

theorem alerts_periodStartTaken (first : Bool) (s : State) :
    (periodStartTaken first s).alerts = (periodCounted first s).alerts := by
  rw [periodStartTaken_eq, State.nextDraw_alerts, planAtPeriodStart_eq, State.setPlanner_alerts,
    beforePlan, takeSnapshot_eq, State.setPlanner_alerts]

/-- R51, R131, R159: the stages of a period start after the counting. -/
theorem countedState_occurrencesStay (first : Bool) (s : State) :
    OccurrencesStay (countedState first s) (periodStartTaken first s) := by
  have silenced : OccurrencesStay (countedState first s) (silencedCounted first s) :=
    .moved (endGrants_moved _ _ _)
  have expired : OccurrencesStay (silencedCounted first s) (expiredState first s) :=
    .moved (expireRequests_moved _)
  exact silenced.trans (expired.trans ((evaluateCycle_occurrencesStay _).trans
    ((countSilence_occurrencesStay _).trans (.of_alerts (alerts_periodStartTaken first s)))))

theorem alerts_countedState (first : Bool) (s : State) : (countedState first s).alerts =
    (raiseOccurrence .periodStart (advancePeriod first s)).alerts := by
  rw [countedState, (ageRequests_moved _).alerts_eq, (countSources_moved _).alerts_eq]

/-- R88: a period start raises PERIOD-START. -/
theorem periodStart_raised (first : Bool) {s : State} {q : PortId}
    (mask : subscribed s q .periodStart = true) :
    .periodStart ∈ pendingOf (periodStartTaken first s) q := by
  refine (countedState_occurrencesStay first s).pends _ q (by decide) ?_
  rw [pendingOf, alerts_countedState]
  exact (mem_pendingOf_raiseOccurrence _ (advancePeriod first s) q _).mpr (.inr ⟨rfl, mask⟩)

theorem periodStartTaken_occurrencesStay (first : Bool) (s : State) :
    OccurrencesStay s (periodStartTaken first s) := by
  have advanced : OccurrencesStay s (raiseOccurrence .periodStart (advancePeriod first s)) :=
    have before : OccurrencesStay s (advancePeriod first s) := .of_alerts rfl
    before.trans (.raise (by decide) _)
  exact (advanced.trans (.of_alerts (alerts_countedState first s))).trans
    (countedState_occurrencesStay first s)

theorem scanApplied_occurrencesStay (scan : Scan) (s : State) : OccurrencesStay s (scanApplied scan s) := by
  obtain ⟨alerts, -⟩ := neighboursTake_alerts scan (applyScan scan s)
  have taken : OccurrencesStay s (neighboursTake scan (applyScan scan s)) := .of_alerts alerts
  exact taken.trans ((OccurrencesStay.follow s _).trans (.of_alerts rfl))

/-! ## The planner after a period start -/

/-- R88, R89, R93: from `s` to `t` a charge period has begun. -/
structure PeriodBegins (period : Word) (s t : State) : Prop where
  timer : t.planner.timerRunning = true
  period : t.planner.period = period
  seconds : t.planner.secondsRemaining = s.planner.periodLength
  length : t.planner.periodLength = s.planner.periodLength
  threshold : t.planner.lateThreshold = s.planner.lateThreshold
  published : t.planner.published = s.planner.published
  mark : t.planner.lateMark = false
  cycle : t.planner.snapshot.cycle = t.cycle.state

theorem PeriodBegins.congr {period : Word} {s t u v : State} (h : PeriodBegins period s t)
    (length : s.planner.periodLength = u.planner.periodLength)
    (threshold : s.planner.lateThreshold = u.planner.lateThreshold)
    (published : s.planner.published = u.planner.published)
    (planner : v.planner = t.planner) (cycle : v.cycle = t.cycle) : PeriodBegins period u v where
  timer := by rw [planner]; exact h.timer
  period := by rw [planner]; exact h.period
  seconds := by rw [planner]; exact h.seconds.trans length
  length := by rw [planner]; exact h.length.trans length
  threshold := by rw [planner]; exact h.threshold.trans threshold
  published := by rw [planner]; exact h.published.trans published
  mark := by rw [planner]; exact h.mark
  cycle := by rw [planner, cycle]; exact h.cycle

theorem cycle_periodCounted (first : Bool) (s : State) :
    (periodStartTaken first s).cycle = (periodCounted first s).cycle := by
  rw [periodStartTaken_eq, State.nextDraw_cycle, planAtPeriodStart_eq, State.setPlanner_cycle, beforePlan,
    takeSnapshot_eq, State.setPlanner_cycle]

theorem periodStartTaken_begins (first : Bool) (s : State) :
    PeriodBegins (if first then 0 else s.planner.period + 1) s (periodStartTaken first s) := by
  have cycle := cycle_periodCounted first s
  have before := beforePlan_planner first s
  cases inside : inSetup s with
  | true =>
    have planner := periodStartTaken_planner_setup first inside
    rw [before] at planner
    constructor <;> simp only [planner, cycle]
  | false =>
    have planner := periodStartTaken_planner_outside first inside
    rw [before] at planner
    constructor <;> simp only [planner, cycle]

/-- R93: the snapshot takes the layers and the model state. -/
theorem snapshot_periodStartTaken (first : Bool) (s : State) :
    (periodStartTaken first s).planner.snapshot.layers = s.model.layers ∧
      (periodStartTaken first s).planner.snapshot.model = s.model.state := by
  have before := beforePlan_planner first s
  cases inside : inSetup s with
  | true =>
    have planner := periodStartTaken_planner_setup first inside
    rw [before] at planner
    simp only [planner, and_self]
  | false =>
    have planner := periodStartTaken_planner_outside first inside
    rw [before] at planner
    simp only [planner, and_self]

theorem state_periodStartTaken_setup (first : Bool) {s : State} (inside : inSetup s = true) :
    (periodStartTaken first s).planner.state = s.planner.state := by
  rw [periodStartTaken_planner_setup first inside, beforePlan_planner]

theorem beginFullPlan_drawn {x : State} (ranks : RanksPermuted (beginFullPlan x).nextDraw)
    (range : imageInRange x.store.image) :
    planHolds .full (beginFullPlan x).nextDraw (formPlan .full x) := by
  have before : RanksPermuted x := ranks
  have drawn (y : State) : PlansAlike y y.nextDraw := ⟨rfl, rfl, rfl, rfl, rfl, rfl, fun _ => rfl, rfl⟩
  exact (drawn _).planHolds (beginFullPlan_holds before range)

/-- R95 to R103: the plan that a period start begins outside SETUP. -/
theorem periodStartTaken_plans (first : Bool) {s : State} (outside : inSetup s = false) :
    ∃ plan, (periodStartTaken first s).planner.state = .planningFull plan ∧
      (RanksPermuted s → imageInRange s.store.image →
        planHolds .full (periodStartTaken first s) plan) := by
  have begins : planAtPeriodStart (beforePlan first s) = beginFullPlan (beforePlan first s) := by
    rw [planAtPeriodStart, if_neg]
    simp [inSetup_beforePlan, outside]
  refine ⟨formPlan .full (beforePlan first s), by rw [periodStartTaken_planner_outside first outside],
    fun ranks range => ?_⟩
  have kept := (periodStartTaken_grantsKept (listed := True) first s).ranks ranks
  rw [periodStartTaken_eq, begins] at kept ⊢
  have image : imageInRange (beforePlan first s).store.image := by rwa [beforePlan_store]
  exact beginFullPlan_drawn kept image

/-! ## A completion with nothing read -/

/-- R5: at least one probe slot is configured. -/
def probed (s : State) : Prop := ∃ n : ProbeId, (s.scanner.probes[n]).layer ≠ none

section Empty
variable {scan : Scan} {s : State}

theorem unused_of_not_probed (h : ¬probed s) (n : ProbeId) : (s.scanner.probes[n]).layer = none :=
  Classical.byContradiction fun used => h ⟨n, used⟩

theorem scanApplied_scanner_empty (nothing : scan.results = []) : (scanApplied scan s).scanner =
    { s.scanner with scan := none } := by
  rw [scanApplied_scanner, updatedProbes_nothing scan _ nothing]

theorem scanApplied_safety_empty (nothing : scan.results = []) (empty : ¬probed s) :
    (scanApplied scan s).safety = s.safety := by
  have model := scanApplied_model_empty nothing (unused_of_not_probed empty)
  rw [scanApplied_model] at model
  rw [scanApplied_safety, if_pos (by rw [model])]

theorem scanApplied_cycle (scan : Scan) (s : State) : (scanApplied scan s).cycle = s.cycle := by
  obtain ⟨alerts, eq⟩ := scanApplied_eq scan s
  obtain ⟨overtemp, moved⟩ := neighboursTake_eq scan (applyScan scan s)
  rw [eq, State.nextDraw_cycle, State.setAlerts_cycle, moved.cycle_eq]
  rfl

end Empty

/-! ## The end of setup -/

section Ending
variable {s : State}

theorem setupLeft_image (s : State) : (setupLeft s).store.image = s.store.image := rfl

theorem setupLeft_scan (s : State) : (setupLeft s).scanner.scan = some (begunScan s) := rfl

theorem emptyScan_setupLeft (s : State) : emptyScan (setupLeft s) =
    if (configuredSlots s).isEmpty then some (begunScan s) else none := by
  rw [emptyScan, setupLeft_scan]
  rfl

/-- R90: with a slot to read, setup ends with a scan begun and the period start. -/
theorem endSetup_probed (some : probed s) : endSetup s = periodStartOfR90 (setupLeft s) := by
  obtain ⟨n, used⟩ := some
  have reads : (configuredSlots s).isEmpty = false := by
    simpa using configuredSlots_cons used
  rw [endSetup, emptyScan_setupLeft, reads]
  rfl

/-- R6, R16, R90: with no slot to read, the completion and the period start fall together. -/
theorem endSetup_unprobed (empty : ¬probed s) :
    (s.planner.timerRunning = true ∧
      endSetup s = periodStartTaken false (scanApplied (begunScan s) (setupLeft s))) ∨
    endSetup s = firstPeriodStart (periodStartOfR90 (setupLeft s))
      (scanApplied (begunScan s) (periodStartOfR90 (setupLeft s))) := by
  have nothing : (configuredSlots s).isEmpty = true := by
    rw [configuredSlots_nil (unused_of_not_probed empty)]
    rfl
  rw [endSetup, emptyScan_setupLeft, nothing, if_pos rfl]
  dsimp only
  split
  · rename_i timed
    rw [Bool.and_eq_true, Bool.and_eq_true] at timed
    have timer : s.planner.timerRunning = true := timed.1.1
    refine .inl ⟨timer, ?_⟩
    rw [periodStartOfR90, scanApplied_planner, if_pos]
    exact timer
  · exact .inr rfl

theorem periodStartOfR90_timed (timer : s.planner.timerRunning = true) :
    periodStartOfR90 (setupLeft s) = periodStartTaken false (setupLeft s) := if_pos timer

theorem periodStartOfR90_still (still : s.planner.timerRunning = false) :
    periodStartOfR90 (setupLeft s) = setupLeft s := if_neg (by simp [setupLeft_planner, still])

theorem setupLeft_begins {t : State} (h : PeriodBegins ((setupLeft s).planner.period + 1) (setupLeft s) t) :
    PeriodBegins (s.planner.period + 1) s t := h.congr rfl rfl rfl rfl rfl

theorem endSetup_firstPeriodStart {x : State} (completed : x.model.scanCompleted = true) (scan : Scan) :
    firstPeriodStart x (scanApplied scan x) = scanApplied scan x := if_pos completed

/-- R90: with the timer running, setup ends with a period start and its plan. -/
theorem endSetup_timed (timer : s.planner.timerRunning = true) (completed : s.model.scanCompleted = true) :
    PeriodBegins (s.planner.period + 1) s (endSetup s) ∧
      (∃ plan, (endSetup s).planner.state = .planningFull plan ∧
        (probed s → RanksPermuted s → imageInRange s.store.image →
          planHolds .full (endSetup s) plan)) ∧
      ∀ q, subscribed s q .periodStart = true → .periodStart ∈ pendingOf (endSetup s) q := by
  have ranks (formed : RanksPermuted s) : RanksPermuted (setupLeft s) := formed.congr fun k => rfl
  by_cases some : probed s
  · rw [endSetup_probed some, periodStartOfR90_timed timer]
    obtain ⟨plan, state, holds⟩ := periodStartTaken_plans false (inSetup_setupLeft s)
    exact ⟨setupLeft_begins (periodStartTaken_begins false _),
      ⟨plan, state, fun _ formed range => holds (ranks formed) range⟩,
      fun q mask => periodStart_raised false (s := setupLeft s) mask⟩
  · rcases endSetup_unprobed some with ⟨-, eq⟩ | eq <;> rw [eq]
    · have outside : inSetup (scanApplied (begunScan s) (setupLeft s)) = false :=
        (inSetup_scanApplied _ _).trans (inSetup_setupLeft s)
      obtain ⟨plan, state, -⟩ := periodStartTaken_plans false outside
      have begins := periodStartTaken_begins false (scanApplied (begunScan s) (setupLeft s))
      have planner := scanApplied_planner (begunScan s) (setupLeft s)
      refine ⟨setupLeft_begins ?_, ⟨plan, state, fun probes => absurd probes some⟩, fun q mask => ?_⟩
      · rw [planner] at begins
        exact begins.congr (by rw [planner]) (by rw [planner]) (by rw [planner]) rfl rfl
      · refine periodStart_raised false ?_
        rw [subscribed, scanApplied_store]
        exact mask
    · rw [periodStartOfR90_timed timer, endSetup_firstPeriodStart]
      · obtain ⟨plan, state, -⟩ := periodStartTaken_plans false (inSetup_setupLeft s)
        refine ⟨setupLeft_begins ((periodStartTaken_begins false (setupLeft s)).congr rfl rfl rfl
            (scanApplied_planner _ _) (scanApplied_cycle _ _)),
          ⟨plan, by rw [scanApplied_planner]; exact state, fun probes => absurd probes some⟩,
          fun q mask => ?_⟩
        exact (scanApplied_occurrencesStay _ _).pends _ q (by decide)
          (periodStart_raised false (s := setupLeft s) mask)
      · rw [periodStartTaken_model]
        exact completed

/-- R90: with the timer still and a slot to read, setup ends with a scan begun. -/
theorem endSetup_still (still : s.planner.timerRunning = false) (some : probed s) :
    endSetup s = setupLeft s := by
  rw [endSetup_probed some, periodStartOfR90_still still]

theorem endSetup_scanner (some : probed s) : (endSetup s).scanner = (beginScan s).scanner := by
  rw [endSetup_probed some, periodStartOfR90_scanner, setupLeft_scanner]

theorem periodStartOfR90_periodKept (s : State) : PeriodKept s (periodStartOfR90 s) := by
  unfold periodStartOfR90
  split
  · exact periodStartTaken_periodKept false s
  · exact .refl s

theorem firstPeriodStart_periodKept (before s : State) : PeriodKept s (firstPeriodStart before s) := by
  unfold firstPeriodStart
  split
  · exact .refl s
  · exact periodStartTaken_periodKept true s

/-- R13, R119: what a completion with nothing read leaves in the model and the safety monitor. -/
theorem scanApplied_empty {scan : Scan} {x : State} (nothing : scan.results = []) (empty : ¬probed x) :
    (scanApplied scan x).scanner.scan = none ∧ (scanApplied scan x).model.state = .none ∧
      (scanApplied scan x).safety = x.safety := by
  rw [scanApplied_scanner, scanApplied_safety_empty nothing empty,
    scanApplied_model_empty nothing (unused_of_not_probed empty)]
  exact ⟨rfl, rfl, rfl⟩

/-- R6: with no slot to read, the scan has completed, in NONE. -/
theorem endSetup_empty (empty : ¬probed s) : (endSetup s).scanner.scan = none ∧
    (endSetup s).model.state = .none ∧ (endSetup s).safety = s.safety := by
  rcases endSetup_unprobed empty with ⟨-, eq⟩ | eq <;> rw [eq]
  · obtain ⟨_, scanner, model, safety, _⟩ :=
      periodStartTaken_periodKept false (scanApplied (begunScan s) (setupLeft s))
    rw [scanner, model, safety]
    exact scanApplied_empty (x := setupLeft s) rfl empty
  · obtain ⟨_, scanner, model, safety, _⟩ := firstPeriodStart_periodKept (periodStartOfR90 (setupLeft s))
      (scanApplied (begunScan s) (periodStartOfR90 (setupLeft s)))
    obtain ⟨_, scanner', _, safety', _⟩ := periodStartOfR90_periodKept (setupLeft s)
    rw [scanner, model, safety]
    have still : ¬probed (periodStartOfR90 (setupLeft s)) := by
      rw [probed, scanner']
      exact empty
    obtain ⟨scan, none, same⟩ := scanApplied_empty (scan := begunScan s) rfl still
    exact ⟨scan, none, same.trans safety'⟩

theorem endSetup_safety (s : State) : (endSetup s).safety = s.safety := by
  by_cases some : probed s
  · obtain ⟨_, _, _, safety, _⟩ := periodStartOfR90_periodKept (setupLeft s)
    rw [endSetup_probed some, safety]
    rfl
  · exact (endSetup_empty some).2.2

theorem firstPeriodStart_occurrencesStay (before s : State) :
    OccurrencesStay s (firstPeriodStart before s) := by
  unfold firstPeriodStart
  split
  · exact .of_alerts rfl
  · exact periodStartTaken_occurrencesStay true s

theorem periodStartOfR90_occurrencesStay (s : State) : OccurrencesStay s (periodStartOfR90 s) := by
  unfold periodStartOfR90
  split
  · exact periodStartTaken_occurrencesStay false s
  · exact .of_alerts rfl

theorem setupLeft_endSetup_occurrencesStay (s : State) :
    OccurrencesStay (setupLeft s) (endSetup s) := by
  by_cases some : probed s
  · rw [endSetup_probed some]
    exact periodStartOfR90_occurrencesStay _
  · rcases endSetup_unprobed some with ⟨-, eq⟩ | eq <;> rw [eq]
    · exact (scanApplied_occurrencesStay _ _).trans (periodStartTaken_occurrencesStay false _)
    · exact (periodStartOfR90_occurrencesStay _).trans
        ((scanApplied_occurrencesStay _ _).trans (firstPeriodStart_occurrencesStay _ _))

theorem mem_pendingOf_setupLeft (s : State) (q : PortId) (j : AlertKind) :
    j ∈ pendingOf (setupLeft s) q ↔
      j ∈ pendingOf s q ∨ (j = .setupChange ∧ subscribed s q .setupChange = true) :=
  mem_pendingOf_raiseOccurrence .setupChange
    (planEnded ((beginScan s).setStore { (beginScan s).store with setup := none })) q j

theorem endSetup_heldLost (s : State) : (endSetup s).alerts.heldLost = s.alerts.heldLost :=
  (setupLeft_endSetup_occurrencesStay s).held.trans (heldLost_raiseOccurrence_other
    (planEnded ((beginScan s).setStore { (beginScan s).store with setup := none })) (by decide))

/-- R90: the end of setup raises SETUP-CHANGE. -/
theorem setupChange_raised {q : PortId} (mask : subscribed s q .setupChange = true) :
    .setupChange ∈ pendingOf (endSetup s) q :=
  (setupLeft_endSetup_occurrencesStay s).pends _ q (by decide) ((mem_pendingOf_setupLeft s q _).mpr (.inr ⟨rfl, mask⟩))

end Ending

end Sys2Proof.Machine
end

section
/-! SUPPORT. The charge period as PERIOD_START takes it, with the loss of a setup holder (R88 to R103, R160,
R175), and the first scan completion (R89). -/

namespace Sys2Proof.Machine

/-! ## The loss of the setup holder -/

/-- R175: the state in which the setup of a holder that fell silent ends. -/
theorem periodStart_loss {s : State} {setup : Setup} (inside : s.store.setup = some setup)
    (lost : holderFallsSilent s = true) (first : Bool) :
    periodStart first s = endSetup (imageRestored setup (periodStartTaken first s)) := by
  rw [periodStart, if_pos lost]
  refine endSetupRestoring_of_setup ?_
  rw [periodStartTaken_store, inside]

theorem setup_of_holderFallsSilent {s : State} (lost : holderFallsSilent s = true) :
    ∃ setup, s.store.setup = some setup := by
  cases inside : s.store.setup with
  | some setup => exact ⟨setup, rfl⟩
  | none => simp [holderFallsSilent, setupHolder, inside] at lost

section Restored
variable {s : State} {setup : Setup}

theorem imageRestored_planner : (imageRestored setup s).planner = s.planner := by
  obtain ⟨alerts, eq⟩ := imageRestored_eq setup s
  rw [eq]
  rfl

theorem imageRestored_store : (imageRestored setup s).store =
    { s.store with image := setup.entrySnapshot } := by
  obtain ⟨alerts, eq⟩ := imageRestored_eq setup s
  rw [eq]
  rfl

theorem imageRestored_blocks : (imageRestored setup s).part = s.part ∧
    (imageRestored setup s).scanner = s.scanner ∧ (imageRestored setup s).model = s.model ∧
    (imageRestored setup s).safety = s.safety ∧ (imageRestored setup s).table = s.table ∧
    (imageRestored setup s).pool = s.pool ∧ (imageRestored setup s).cycle = s.cycle ∧
    (imageRestored setup s).ports = s.ports ∧ (imageRestored setup s).wires = s.wires := by
  obtain ⟨alerts, eq⟩ := imageRestored_eq setup s
  rw [eq]
  exact ⟨rfl, rfl, rfl, rfl, rfl, rfl, rfl, rfl, rfl⟩

theorem probed_imageRestored : probed (imageRestored setup s) ↔ probed s := by
  rw [probed, imageRestored_blocks.2.1, probed]

theorem ranks_imageRestored (ranks : RanksPermuted s) : RanksPermuted (imageRestored setup s) :=
  ranks.congr fun k => by rw [grantOf, imageRestored_blocks.2.2.2.2.1]; rfl

end Restored

/-- R88, R175: the second period start and its full plan. -/
theorem periodStart_lost {s : State} (first : Bool) (completed : s.model.scanCompleted = true)
    (lost : holderFallsSilent s = true) :
    PeriodBegins ((if first then 0 else s.planner.period + 1) + 1) s (periodStart first s) ∧
      (∃ plan, (periodStart first s).planner.state = .planningFull plan ∧
        (probed s → RanksPermuted s → ImagesInRange s → planHolds .full (periodStart first s) plan)) ∧
      (periodStart first s).store.setup = none ∧
      ∀ setup, s.store.setup = some setup → (periodStart first s).store.image = setup.entrySnapshot := by
  obtain ⟨setup, inside⟩ := setup_of_holderFallsSilent lost
  rw [periodStart_loss inside lost]
  have before := periodStartTaken_begins first s
  have scanner := periodStartTaken_scanner first s
  have model := periodStartTaken_model first s
  have formed (ranks : RanksPermuted s) : RanksPermuted (periodStartTaken first s) :=
    (periodStartTaken_grantsKept (listed := True) first s).ranks ranks
  generalize periodStartTaken first s = u at before scanner model formed ⊢
  have planner := imageRestored_planner (setup := setup) (s := u)
  obtain ⟨begins, ⟨plan, state, holds⟩, -⟩ := endSetup_timed (s := imageRestored setup u)
    (by rw [planner]; exact before.timer)
    (by rw [imageRestored_blocks.2.2.1, model]; exact completed)
  rw [planner, before.period] at begins
  have store : (endSetup (imageRestored setup u)).store =
      { (imageRestored setup u).store with setup := none } := endSetup_store _
  have image : (imageRestored setup u).store.image = setup.entrySnapshot := by
    rw [imageRestored_store]
  refine ⟨begins.congr ?_ ?_ ?_ rfl rfl, ⟨plan, state, fun some ranks range => holds ?_ ?_ ?_⟩, ?_,
    fun entered same => ?_⟩
  · rw [planner, before.length]
  · rw [planner, before.threshold]
  · rw [planner, before.published]
  · rw [probed_imageRestored, probed, scanner]
    exact some
  · exact ranks_imageRestored (formed ranks)
  · rw [image]
    exact range.2 setup inside
  · rw [store]
  · rw [inside] at same
    cases same
    rw [store]
    exact image

/-! ## The charge period -/

theorem exec_periodStart {s : State} (running : isRunning s = true)
    (timer : s.planner.timerRunning = true) (last : s.planner.secondsRemaining = 1) :
    exec .periodStart s = .next (periodStart false s) := by
  show execPeriodStart s = _
  rw [execPeriodStart, if_pos (by simp [running, timer, last])]

theorem exec_periodStart_still {s : State}
    (still : s.planner.timerRunning = false ∨ isRunning s = false) :
    exec .periodStart s = .next s := by
  show execPeriodStart s = _
  rw [execPeriodStart, if_neg]
  rcases still with still | still <;> simp [still]

theorem exec_secondsRemainingTick (s : State) :
    exec .secondsRemainingTick s = execSecondsRemainingTick s := rfl

theorem periodStart_safety (first : Bool) (s : State) : (periodStart first s).safety = s.safety := by
  obtain ⟨_, _, _, safety, _⟩ := periodStartTaken_periodKept first s
  cases lost : holderFallsSilent s with
  | false =>
    rw [periodStart, lost]
    exact safety
  | true =>
    obtain ⟨setup, inside⟩ := setup_of_holderFallsSilent lost
    rw [periodStart_loss inside lost, endSetup_safety, imageRestored_blocks.2.2.2.1, safety]

theorem periodStart_taken {first : Bool} {s : State} (loud : holderFallsSilent s = false) :
    periodStart first s = periodStartTaken first s := by
  rw [periodStart, loud]
  rfl

theorem loud_of_outside {s : State} (outside : inSetup s = false) : holderFallsSilent s = false := by
  cases lost : holderFallsSilent s with
  | false => rfl
  | true =>
    obtain ⟨setup, inside⟩ := setup_of_holderFallsSilent lost
    rw [(inSetup_iff s).mpr ⟨setup, inside⟩] at outside
    cases outside

theorem periodStart_begins {s : State} (first : Bool) (completed : s.model.scanCompleted = true) :
    ∃ n, PeriodBegins n s (periodStart first s) := by
  cases lost : holderFallsSilent s with
  | false =>
    rw [periodStart_taken lost]
    exact ⟨_, periodStartTaken_begins first s⟩
  | true => exact ⟨_, (periodStart_lost first completed lost).1⟩

/-- Settles O30, by whether the setup holder falls silent. -/
theorem chargePeriodAdvances : Obligations.ChargePeriodAdvances := by
  refine ⟨fun s => ⟨fun ⟨running, timer, more⟩ => ?_, fun still => ⟨?_, exec_periodStart_still still⟩⟩,
    fun s running timer last completed => ?_⟩
  · rw [exec_secondsRemainingTick, execSecondsRemainingTick, if_pos (by simp [running, timer, more])]
  · rw [exec_secondsRemainingTick, execSecondsRemainingTick, if_neg]
    rcases still with still | still <;> simp [still]
  have kept := periodStart_eventKept false s
  obtain ⟨n, begins⟩ := periodStart_begins false completed
  refine ⟨_, exec_periodStart running timer last, begins.timer, begins.seconds, begins.length,
    begins.threshold, begins.published, begins.mark, begins.cycle, kept.part, periodStart_safety false s,
    kept.records, kept.shares, kept.freeLists, kept.postLists, periodStart_probes false s, kept.modes,
    fun loud => ?_, kept.wires, fun loud q mask => ?_, fun outside => ?_, fun inside loud => ?_,
    fun lost => ?_⟩
  · rw [periodStart_taken loud]
    exact ⟨periodStartTaken_scanner false s, periodStartTaken_store false s⟩
  · rw [periodStart_taken loud]
    exact periodStart_raised false mask
  · rw [periodStart_taken (loud_of_outside outside)]
    exact ⟨(periodStartTaken_begins false s).period, periodStartTaken_plans false outside,
      periodStartTaken_model false s, snapshot_periodStartTaken false s⟩
  · rw [periodStart_taken loud]
    exact ⟨(periodStartTaken_begins false s).period, state_periodStartTaken_setup false inside,
      periodStartTaken_model false s, snapshot_periodStartTaken false s⟩
  · obtain ⟨begins, plans, out, restored⟩ := periodStart_lost false completed lost
    exact ⟨begins.period.trans (BitVec.add_assoc s.planner.period 1 1), plans, out, restored⟩

/-! ## The first completion -/

section First
variable {s : State}

theorem scanCompleted_first (first : s.model.scanCompleted = false) (scan : Scan) :
    scanCompleted scan s = periodStart true (scanApplied scan s) := by
  rw [scanCompleted, first]
  rfl

/-- R89: the first completion since the reset starts the timer. -/
theorem firstCompletion_starts (first : s.model.scanCompleted = false) (scan : Scan) :
    (scanCompleted scan s).model.scanCompleted = true ∧
      ∃ n, PeriodBegins n s (scanCompleted scan s) := by
  have completed := scanApplied_scanCompleted scan s
  have follows : TimerFollows (periodStart true (scanApplied scan s)) := .periodStart completed true
  obtain ⟨n, begins⟩ := periodStart_begins true completed
  have planner := scanApplied_planner scan s
  rw [scanCompleted_first first]
  exact ⟨follows.symm.trans begins.timer, n, begins.congr (by rw [planner]) (by rw [planner])
    (by rw [planner]) rfl rfl⟩

/-- R89, R93, R95: outside SETUP the first full plan begins. -/
theorem firstCompletion_plans (first : s.model.scanCompleted = false) (outside : inSetup s = false)
    (scan : Scan) : (scanCompleted scan s).planner.period = 0 ∧
      (∃ plan, (scanCompleted scan s).planner.state = .planningFull plan ∧
        (RanksPermuted s → imageInRange s.store.image → planHolds .full (scanCompleted scan s) plan)) ∧
      (scanCompleted scan s).model = (scanApplied scan s).model ∧
      (scanCompleted scan s).planner.snapshot.layers = (scanCompleted scan s).model.layers ∧
      (scanCompleted scan s).planner.snapshot.model = (scanCompleted scan s).model.state := by
  have still : inSetup (scanApplied scan s) = false := (inSetup_scanApplied scan s).trans outside
  obtain ⟨plan, state, holds⟩ := periodStartTaken_plans true still
  have model := periodStartTaken_model true (scanApplied scan s)
  rw [scanCompleted_first first, periodStart_taken (loud_of_outside still)]
  refine ⟨(periodStartTaken_begins true _).period, ⟨plan, state, fun ranks range => holds ?_ ?_⟩, model, ?_⟩
  · exact (scanApplied_grantsKept (listed := True) scan s).ranks ranks
  · rwa [scanApplied_store]
  · rw [model]
    exact snapshot_periodStartTaken true _

/-- R6: a scan begun with no configured slot completes at once. -/
theorem exec_scanStart_empty (running : isRunning s = true) (idle : s.scanner.scan = none)
    (unused : ∀ n : ProbeId, (s.scanner.probes[n]).layer = none) :
    exec .scanStart s = .next (scanCompleted (begunScan s) (beginScan s)) := by
  rw [exec_scanStart running idle, completeIfEmpty_empty (beginScan_scan s) (configuredSlots_nil unused)]

/-- Settles O25, by the command at which the scan completes. -/
theorem firstCompletionStartsTimer : Obligations.FirstCompletionStartsTimer := by
  rintro s c first (⟨scan, n, r, inFlight, reads, ends⟩ | ⟨rfl, running, idle, unused⟩)
  · obtain ⟨completed, _, begins⟩ := firstCompletion_starts first (scanRead scan n r)
    refine ⟨_, exec_lastRead inFlight reads ends, completed, begins.timer, begins.length, begins.seconds,
      fun outside => ?_⟩
    obtain ⟨period, plans, -, snapshot⟩ := firstCompletion_plans first outside (scanRead scan n r)
    refine ⟨period, begins.mark, plans, fun start => ?_, snapshot.1, snapshot.2, begins.cycle⟩
    obtain ⟨_, _, _, rfl, -⟩ | ⟨rfl, -⟩ := ends <;> cases start
  · have firstBegun : (beginScan s).model.scanCompleted = false := first
    obtain ⟨completed, _, begins⟩ := firstCompletion_starts firstBegun (begunScan s)
    refine ⟨_, exec_scanStart_empty running idle unused, completed, begins.timer, begins.length,
      begins.seconds, fun outside => ?_⟩
    obtain ⟨period, ⟨plan, state, holds⟩, model, snapshot⟩ :=
      firstCompletion_plans firstBegun (show inSetup (beginScan s) = false from outside) (begunScan s)
    rw [scanApplied_model_empty (scan := begunScan s) (s := beginScan s) rfl unused] at model
    refine ⟨period, begins.mark, ⟨plan, state, fun ranks range => holds ranks range⟩, fun _ => ?_,
      snapshot.1, snapshot.2, begins.cycle⟩
    rw [model]
    exact ⟨rfl, rfl, rfl⟩

end First

end Sys2Proof.Machine
end

section
/-! SUPPORT. SETUP-ABANDON (R90, R146, R175): what the restored image leaves, and the end of setup. -/

namespace Sys2Proof.Machine

/-! ## The answer -/

section Answer
variable {p : PortId} {s : State} {setup : Setup}

theorem abandonAnswer_refused {status : Status}
    (refusal : setupAbandonAnswer p (heard p s) = refused status (heard p s))
    (decoding : decodes s p = true) : exec (.setupAbandon p) s = .next (refusedWith s p status) :=
  exec_refused (body := setupAbandonAnswer p) rfl decoding refusal

theorem exec_setupAbandon (decoding : decodes s p = true) (inside : s.store.setup = some setup)
    (holder : setup.holder = p) : exec (.setupAbandon p) s =
      .next (answered p (accepted [] (endSetup (imageRestored setup (heard p s))))) := by
  have inside' : (heard p s).store.setup = some setup := inside
  have answer : setupAbandonAnswer p (heard p s) =
      accepted [] (endSetup (imageRestored setup (heard p s))) := by
    rw [setupAbandonAnswer, inside', ← endSetupRestoring_of_setup inside']
    exact if_neg (not_not_intro holder)
  rw [exec_served (body := setupAbandonAnswer p) rfl decoding, answer]

theorem answered_response (p : PortId) (a : Answer) :
    (portOf (answered p a) p).response = some a.1 := by
  simp [answered, modPort, portOf]

theorem answered_active (p : PortId) (a : Answer) (q : PortId) :
    (portOf (answered p a) q).active = (portOf a.2 q).active := by
  by_cases same : p = q
  · subst same
    simp [answered, modPort, portOf]
  · have other := getElem_modifyAt_other a.2.ports.ports p q
      (fun port => { port with response := some a.1 }) same
    simpa [answered, modPort, portOf] using congrArg Port.active other

theorem answered_plansAlike (p : PortId) (a : Answer) : PlansAlike a.2 (answered p a) where
  part := rfl
  model := rfl
  table := rfl
  pool := rfl
  snapshot := rfl
  safety := rfl
  active := answered_active p a
  image := rfl

end Answer

/-! ## The restored image -/

section Restored
variable {s : State} {setup : Setup}

theorem imageRestored_settled : MasksSettled s (imageRestored setup s) := masksSettled s _

theorem subscribed_imageRestored (q : PortId) (j : AlertKind) :
    subscribed (imageRestored setup s) q j = maskHas setup.entrySnapshot q j := by
  rw [subscribed, imageRestored_store]

theorem heldLost_imageRestored (q : PortId) : (imageRestored setup s).alerts.heldLost[q] =
    (s.alerts.heldLost[q] && !(!subscribed s q .settingsLost &&
      maskHas setup.entrySnapshot q .settingsLost)) := by
  have settled := (settleMasks_at s.store.image
    (s.setStore { s.store with image := setup.entrySnapshot }) q).2
  rw [heldLost_settleMask_self] at settled
  exact settled

/-- R142, R143, R146: the alert sets of a port once an abandoned setup has ended. -/
theorem endSetup_imageRestored_alerts (q : PortId) :
    awaitingOf (endSetup (imageRestored setup s)) q = awaitingOf s q ∧
    (endSetup (imageRestored setup s)).alerts.heldLost[q] = (s.alerts.heldLost[q] &&
      !(!subscribed s q .settingsLost && maskHas setup.entrySnapshot q .settingsLost)) ∧
    (subscribed s q .settingsLost = false → maskHas setup.entrySnapshot q .settingsLost = true →
      modeOf s .settingsLost = .edge → s.alerts.heldLost[q] = true →
        .settingsLost ∈ pendingOf (endSetup (imageRestored setup s)) q) ∧
    ∀ j,
      (subscribed s q j = true → maskHas setup.entrySnapshot q j = false →
        j ∉ pendingOf (endSetup (imageRestored setup s)) q) ∧
      (subscribed s q j = maskHas setup.entrySnapshot q j → modeOf s j = .edge →
        j ∈ pendingOf s q → j ∈ pendingOf (endSetup (imageRestored setup s)) q) ∧
      (subscribed s q j = false → maskHas setup.entrySnapshot q j = true → levelCapable j = true →
        modeOf s j = .level →
          (j ∈ pendingOf (endSetup (imageRestored setup s)) q ↔
            condition (endSetup (imageRestored setup s)) j = true ∧ j ∉ awaitingOf s q)) := by
  have settled := imageRestored_settled (s := s) (setup := setup)
  have step := endSetup_alertsStep (imageRestored setup s)
  have awaits := (step.awaitingOf_eq q).trans (settled.awaitingOf_eq q)
  have mask := subscribed_imageRestored (s := s) (setup := setup) q
  refine ⟨awaits, ?_, fun was now edge held => ?_, fun j => ⟨fun was cleared pends => ?_,
    fun same edge pends => ?_, fun was now capable level => ?_⟩⟩
  · rw [endSetup_heldLost, heldLost_imageRestored]
  · obtain ⟨-, -, set⟩ := settled.follows q .settingsLost
    refine step.stays q _ ((settled.modeOf_eq _).trans edge) ?_
    exact (((set was ((mask _).trans now)).2 edge)).mpr (.inr ⟨rfl, held⟩)
  · obtain ⟨-, gone, -⟩ := settled.follows q j
    rcases step.joins q j pends with earlier | ⟨subscribes, -⟩
    · exact gone was ((mask j).trans cleared) earlier
    · rw [mask, cleared] at subscribes
      cases subscribes
  · obtain ⟨stands, -, -⟩ := settled.follows q j
    exact step.stays q j ((settled.modeOf_eq j).trans edge)
      ((stands ((mask j).trans same.symm)).mpr pends)
  · obtain ⟨-, -, set⟩ := settled.follows q j
    have before : j ∈ pendingOf (imageRestored setup s) q ↔
        levelPending (imageRestored setup s) q j = true := by
      rw [(set was ((mask j).trans now)).1 level, levelPending_iff, settled.stands, settled.awaitingOf_eq,
        mask, now]
      exact (and_iff_right rfl).symm
    rw [step.level q j capable ((settled.modeOf_eq j).trans level) before, levelPending_iff, step.masks,
      mask, now, awaits]
    exact and_iff_right rfl

/-- R90: the planner after the end of an abandoned setup. -/
theorem endSetup_imageRestored_planner (timer : s.planner.timerRunning = s.model.scanCompleted) :
    (s.planner.timerRunning = true →
      (endSetup (imageRestored setup s)).planner.period = s.planner.period + 1 ∧
        (∀ q, maskHas setup.entrySnapshot q .periodStart = true →
          .periodStart ∈ pendingOf (endSetup (imageRestored setup s)) q) ∧
        ∃ plan, (endSetup (imageRestored setup s)).planner.state = .planningFull plan ∧
          (probed s → RanksPermuted s → imageInRange setup.entrySnapshot →
            planHolds .full (endSetup (imageRestored setup s)) plan)) ∧
    (s.planner.timerRunning = false → probed s →
      (endSetup (imageRestored setup s)).planner.state = .idle ∧
        (endSetup (imageRestored setup s)).planner.timerRunning = false) := by
  have planner := imageRestored_planner (setup := setup) (s := s)
  have image : (imageRestored setup s).store.image = setup.entrySnapshot := by
    rw [imageRestored_store]
  refine ⟨fun runs => ?_, fun still some => ?_⟩
  · obtain ⟨begins, ⟨plan, state, holds⟩, raised⟩ := endSetup_timed (s := imageRestored setup s)
      (by rw [planner, runs]) (by rw [imageRestored_blocks.2.2.1, ← timer, runs])
    refine ⟨begins.period.trans (by rw [planner]),
      fun q mask => raised q ((subscribed_imageRestored q _).trans mask), plan, state,
      fun some ranks range => holds (probed_imageRestored.mpr some) (ranks_imageRestored ranks) ?_⟩
    rwa [image]
  · rw [endSetup_still (by rw [planner, still]) (probed_imageRestored.mpr some), setupLeft_planner,
      planner]
    exact ⟨rfl, still⟩

/-- R5, R6: the scan that begins as an abandoned setup ends. -/
theorem endSetup_imageRestored_scan :
    (probed s → (endSetup (imageRestored setup s)).scanner.interval =
        (imageByte setup.entrySnapshot 0x020).toNat ∧
      (endSetup (imageRestored setup s)).scanner.scan = some
        { toRead := (List.finRange 8).filter fun n => (s.scanner.probes[n]).layer.isSome
          results := []
          holdLimit := (imageByte setup.entrySnapshot 0x021).toNat
          inversionMargin := (imageWord setup.entrySnapshot 0x022).toNat
          tLimit := (imageWord setup.entrySnapshot 0x02A).toInt
          hysteresis := (imageWord setup.entrySnapshot 0x02C).toNat }) ∧
    (¬probed s → (endSetup (imageRestored setup s)).scanner.scan = none ∧
      (endSetup (imageRestored setup s)).model.state = .none) := by
  refine ⟨fun some => ?_, fun empty => ?_⟩
  · have scanner : (imageRestored setup s).scanner = s.scanner := imageRestored_blocks.2.1
    rw [endSetup_scanner (probed_imageRestored.mpr some)]
    simp only [beginScan, State.setScanner_scanner, imageRestored_store, configuredSlots, scanner]
    exact ⟨rfl, rfl⟩
  · obtain ⟨scan, model, -⟩ := endSetup_empty (mt probed_imageRestored.mp empty)
    exact ⟨scan, model⟩

/-- R175: the blocks that an abandoned setup leaves, and no copy taken. -/
theorem endSetup_imageRestored_kept : EventKept s (endSetup (imageRestored setup s)) ∧
    (endSetup (imageRestored setup s)).scanner.probes = s.scanner.probes ∧
    (endSetup (imageRestored setup s)).safety = s.safety ∧
    (endSetup (imageRestored setup s)).store =
      { s.store with image := setup.entrySnapshot, setup := none } := by
  have scanner : (imageRestored setup s).scanner = s.scanner := imageRestored_blocks.2.1
  have safety : (imageRestored setup s).safety = s.safety := imageRestored_blocks.2.2.2.1
  refine ⟨EventKept.trans ?_ (endSetup_eventKept _), by rw [endSetup_probes, scanner],
    by rw [endSetup_safety, safety], by rw [endSetup_store, imageRestored_store]⟩
  exact (setImage_eventKept s _).trans (settleMasks_eventKept _ _)

end Restored

/-- Settles O49, by who holds setup. -/
theorem setupAbandonRestores : Obligations.SetupAbandonRestores := by
  intro p s decoding
  refine ⟨fun outside => abandonAnswer_refused ?_ decoding, fun setup inside =>
    ⟨fun other => abandonAnswer_refused ?_ decoding, fun holder timer => ?_⟩⟩
  · rw [setupAbandonAnswer, show (heard p s).store.setup = none from outside]
  · rw [setupAbandonAnswer, show (heard p s).store.setup = some setup from inside]
    exact if_pos other
  refine ⟨_, exec_setupAbandon decoding inside holder, ?_⟩
  obtain ⟨kept, probes, safety, store⟩ := endSetup_imageRestored_kept (s := heard p s) (setup := setup)
  obtain ⟨scans, empties⟩ := endSetup_imageRestored_scan (s := heard p s) (setup := setup)
  obtain ⟨begins, stays⟩ := endSetup_imageRestored_planner (s := heard p s) (setup := setup) timer
  have raised (q : PortId) (mask : maskHas setup.entrySnapshot q .setupChange = true) :=
    setupChange_raised (s := imageRestored setup (heard p s))
      ((subscribed_imageRestored q _).trans mask)
  have alerts := @endSetup_imageRestored_alerts (heard p s) setup
  generalize endSetup (imageRestored setup (heard p s)) = t at *
  have plans (plan : Plan) := (answered_plansAlike p (accepted [] t)).planHolds (kind := .full) (plan := plan)
  refine ⟨answered_response p _, store, kept.part, kept.wires, kept.freeLists, kept.postLists,
    kept.records, kept.shares, kept.periodLength, kept.timeout, kept.modes, kept.lateThreshold,
    kept.interval, kept.hold, kept.deadline, kept.tDis, kept.floor, probes, safety, scans, empties,
    fun runs => ?_, stays, raised, fun q => alerts q⟩
  obtain ⟨period, pends, plan, state, holds⟩ := begins runs
  exact ⟨period, pends, plan, state, fun some ranks range => plans plan (holds some ranks range)⟩

end Sys2Proof.Machine
end

section
/-! SUPPORT. The start-up load (R4, R5, R6, R89, R118, R124, R151, R178). -/

namespace Sys2Proof.Machine

/-! ## The image that is loaded -/

section Image
variable {page : Image} {p : Page}

theorem goodPage_holds (good : pageGood page = true) : goodPage (.holds page) = some page := by
  rw [goodPage, if_pos good]

theorem imageToLoad_good (good : pageGood page = true) :
    imageToLoad (.holds page) = loadedImage page := by
  rw [imageToLoad, goodPage_holds good]

theorem goodPage_none (bad : ∀ page, p = .holds page → pageGood page = false) : goodPage p = none := by
  cases p with
  | torn => rfl
  | holds page => rw [goodPage, bad page rfl]; rfl

theorem imageToLoad_bad (bad : ∀ page, p = .holds page → pageGood page = false) :
    imageToLoad p = factoryImage := by
  rw [imageToLoad, goodPage_none bad]

end Image

/-! ## The stages of the load -/

section Load
variable {s : State}

/-- R124, R178: the copies taken and the pins read. -/
def copiesAndPins (s : State) : State := pinsRead (copiesLoaded (imageToLoad s.store.page) s)

/-- R151: the conditions followed under the loaded masks and modes. -/
def loadFollowed (s : State) : State :=
  followConditions (copiesLoaded (imageToLoad s.store.page) s) (copiesAndPins s)

theorem settledLoad_announces (s : State) :
    settledLoad s = announceLoss s.store.page (loadFollowed s) := rfl

/-- R5: the state in which the first scan has begun. -/
def loadScanning (s : State) : State := beginScan (settledLoad s)

theorem loadCompleted_scanning (s : State) : loadCompleted s = completeIfEmpty (loadScanning s) := rfl

theorem announceLoss_eventKept (page : Page) (s : State) : EventKept s (announceLoss page s) := by
  unfold announceLoss
  split
  · exact raiseOccurrence_eventKept _ s
  · exact .refl s

theorem loadScanning_eventKept (s : State) : EventKept (copiesAndPins s) (loadScanning s) :=
  (followConditions_eventKept _ _).trans ((announceLoss_eventKept _ _).trans (setScanner_eventKept _ _))

theorem loadCompleted_eventKept (s : State) : EventKept (copiesAndPins s) (loadCompleted s) :=
  (loadScanning_eventKept s).trans (completeIfEmpty_eventKept _)

theorem settledLoad_blocks (s : State) : ∃ alerts, settledLoad s = (copiesAndPins s).setAlerts alerts :=
  settledLoad_eq s

theorem loadScanning_store (s : State) : (loadScanning s).store = (copiesAndPins s).store := by
  obtain ⟨alerts, eq⟩ := settledLoad_blocks s
  show (settledLoad s).store = _
  rw [eq]
  rfl

theorem loadScanning_image (s : State) : (loadScanning s).store.image = imageToLoad s.store.page := by
  rw [loadScanning_store]
  rfl

theorem inSetup_loadScanning (outside : s.store.setup = none) : inSetup (loadScanning s) = false := by
  rw [inSetup, loadScanning_store]
  show s.store.setup.isSome = false
  rw [outside]
  rfl

theorem loadScanning_scanner (s : State) : (loadScanning s).scanner =
    { probes := Vector.ofFn (freshProbe (imageToLoad s.store.page))
      interval := scanInterval (imageToLoad s.store.page)
      scan := some (begunScan (settledLoad s)) } := by
  obtain ⟨alerts, eq⟩ := settledLoad_blocks s
  rw [loadScanning, eq]
  rfl

theorem probed_loadScanning : probed (loadScanning s) ↔
    ∃ n, probeLayer (imageToLoad s.store.page) n ≠ none := by
  rw [probed, loadScanning_scanner]
  simp [freshProbe]

/-- R5, R118: the scan that the load begins. -/
theorem begunScan_settledLoad (s : State) : begunScan (settledLoad s) =
    { toRead := (List.finRange 8).filter fun n => (probeLayer (imageToLoad s.store.page) n).isSome
      results := []
      holdLimit := (imageByte (imageToLoad s.store.page) 0x021).toNat
      inversionMargin := (imageWord (imageToLoad s.store.page) 0x022).toNat
      tLimit := (imageWord (imageToLoad s.store.page) 0x02A).toInt
      hysteresis := (imageWord (imageToLoad s.store.page) 0x02C).toNat } := by
  obtain ⟨alerts, eq⟩ := settledLoad_blocks s
  have scanner : (settledLoad s).scanner = freshScanner (imageToLoad s.store.page) := by
    rw [eq]
    rfl
  have image : (settledLoad s).store.image = imageToLoad s.store.page := by
    rw [settledLoad_store]
  rw [begunScan, image, configuredSlots, scanner]
  simp only [freshScanner, freshProbe, Fin.getElem_fin, Vector.getElem_ofFn]
  rfl

theorem loadCompleted_reads (some : probed (loadScanning s)) : loadCompleted s = loadScanning s := by
  obtain ⟨n, used⟩ := some
  rw [loadCompleted_scanning]
  exact completeIfEmpty_reading (scan := begunScan (settledLoad s)) rfl
    (configuredSlots_cons (s := settledLoad s) used)

theorem loadCompleted_empty (empty : ¬probed (loadScanning s)) :
    loadCompleted s = scanCompleted (begunScan (settledLoad s)) (loadScanning s) := by
  rw [loadCompleted_scanning]
  exact completeIfEmpty_empty rfl
    (configuredSlots_nil (s := settledLoad s) (unused_of_not_probed empty))

/-- R6, R89: a scan, a completion with nothing read, or one with the first period start. -/
theorem loadCompleted_cases (outside : s.store.setup = none) :
    loadCompleted s = loadScanning s ∨
      loadCompleted s = scanApplied (begunScan (settledLoad s)) (loadScanning s) ∨
      loadCompleted s = periodStartTaken true
        (scanApplied (begunScan (settledLoad s)) (loadScanning s)) := by
  by_cases some : probed (loadScanning s)
  · exact .inl (loadCompleted_reads some)
  · rw [loadCompleted_empty some]
    rcases scanCompleted_cases (begunScan (settledLoad s)) (.inr (inSetup_loadScanning outside)) with
      ⟨-, eq⟩ | ⟨-, eq⟩
    · exact .inr (.inl eq)
    · exact .inr (.inr eq)

theorem loadCompleted_store (outside : s.store.setup = none) :
    (loadCompleted s).store = (copiesAndPins s).store := by
  rcases loadCompleted_cases outside with eq | eq | eq <;> rw [eq]
  · exact loadScanning_store s
  · rw [scanApplied_store, loadScanning_store]
  · rw [periodStartTaken_store, scanApplied_store, loadScanning_store]

theorem loadCompleted_image (outside : s.store.setup = none) :
    (loadCompleted s).store.image = imageToLoad s.store.page := by
  rw [loadCompleted_store outside]
  rfl

theorem loadCompleted_probes (outside : s.store.setup = none) :
    (loadCompleted s).scanner.probes = Vector.ofFn (freshProbe (imageToLoad s.store.page)) ∧
      (loadCompleted s).scanner.interval = scanInterval (imageToLoad s.store.page) := by
  have scanner := loadScanning_scanner s
  have applied := scanApplied_scanner_empty (scan := begunScan (settledLoad s)) (s := loadScanning s) rfl
  rcases loadCompleted_cases outside with eq | eq | eq <;> rw [eq]
  · rw [scanner]
    exact ⟨rfl, rfl⟩
  · rw [applied, scanner]
    exact ⟨rfl, rfl⟩
  · rw [periodStartTaken_scanner, applied, scanner]
    exact ⟨rfl, rfl⟩

theorem portOf_loadScanning (p : PortId) : portOf (loadScanning s) p = resetPort := by
  obtain ⟨alerts, eq⟩ := settledLoad_blocks s
  refine portOf_freshPorts (img := imageToLoad s.store.page) ?_ p
  show (settledLoad s).ports = _
  rw [eq]
  rfl

theorem active_loadCompleted (outside : s.store.setup = none) (p : PortId) :
    (portOf (loadCompleted s) p).active = false := by
  have silent : (portOf (loadScanning s) p).active = false := by
    rw [portOf_loadScanning]
    rfl
  have applied : (portOf (scanApplied (begunScan (settledLoad s)) (loadScanning s)) p).active = false := by
    rw [portOf, scanApplied_ports]
    exact silent
  rcases loadCompleted_cases outside with eq | eq | eq <;> rw [eq]
  · exact silent
  · exact applied
  · rw [active_periodStartTaken, applied, Bool.false_and]

/-! ## The sources -/

theorem loadScanning_table (s : State) :
    (loadScanning s).table = freshTable (imageToLoad s.store.page) ∧
      (loadScanning s).pool = freshPool (imageToLoad s.store.page) := by
  obtain ⟨alerts, eq⟩ := settledLoad_blocks s
  rw [loadScanning, eq]
  exact ⟨rfl, rfl⟩

theorem freshGrant_state (img : Image) (k : SlotId) : (freshGrant img k).state =
    if (copiedRecord img k).owner = none then .unused else .idle := by
  have owner : (copiedRecord img k).owner = recordOwner img k := rfl
  rw [owner, freshGrant, clearedGrant]
  cases recordOwner img k <;> rfl

theorem grantOf_loadCompleted (outside : s.store.setup = none) (k : SlotId) :
    grantOf (loadCompleted s) k = freshGrant (imageToLoad s.store.page) k := by
  have fresh := grantOf_fresh (loadScanning_table s).1 k
  have still : (grantOf (loadScanning s) k).state ≠ .running := by
    rw [fresh]
    exact freshGrant_not_running _ k
  have applied : grantOf (scanApplied (begunScan (settledLoad s)) (loadScanning s)) k = _ :=
    (grantOf_scanApplied_other (begunScan (settledLoad s)) (loadScanning s) k still).trans fresh
  have unheld (i : FrameId) :
      heldSlot (scanApplied (begunScan (settledLoad s)) (loadScanning s)) i = none := by
    have free := frameOf_freshPool (loadScanning_table s).2 i
    have before : heldSlot (loadScanning s) i = none :=
      heldSlot_of_not_isHeld (isHeld_of_state (st := .free) (by rw [free]; rfl) (by simp))
    rw [heldSlot_of_frame _ _ i (frameOf_scanApplied_other _ _ i fun j slot => ?_), before]
    rw [before] at slot
    cases slot
  have unlapsed (i : FrameId) (slot : heldSlot (scanApplied (begunScan (settledLoad s))
      (loadScanning s)) i = some k) :
      ¬lapses (scanApplied (begunScan (settledLoad s)) (loadScanning s)) i := by
    rw [unheld] at slot
    cases slot
  have idle : (freshGrant (imageToLoad s.store.page) k).state = .waiting ∨
      (freshGrant (imageToLoad s.store.page) k).state = .idle ∨
      (freshGrant (imageToLoad s.store.page) k).state = .unused := by
    rw [freshGrant_state]
    split <;> simp
  rcases loadCompleted_cases outside with eq | eq | eq <;> rw [eq]
  · exact fresh
  · exact applied
  · rw [(grantOf_periodStartTaken true _ k).2 unlapsed, applied, countedGrant_of_still idle, if_neg]
    rintro ⟨-, running⟩
    exact freshGrant_not_running _ k running

/-! ## The alerts -/

theorem announceLoss_alertsStep (page : Page) (s : State) : AlertsStep s (announceLoss page s) := by
  unfold announceLoss
  split
  · exact .raise (by decide) _
  · exact .refl _

theorem loadFollowed_alertsStep (s : State) : AlertsStep (loadFollowed s) (loadCompleted s) :=
  (announceLoss_alertsStep s.store.page (loadFollowed s)).trans ((beginScan_alertsStep _).trans
    (completeIfEmpty_alertsStep (s := loadScanning s) fun p => by
      rw [portOf_loadScanning]
      rfl))

theorem loadFollowed_eventKept (s : State) : EventKept (loadFollowed s) (loadCompleted s) :=
  (announceLoss_eventKept s.store.page (loadFollowed s)).trans ((setScanner_eventKept _ _).trans
    (completeIfEmpty_eventKept (loadScanning s)))

/-- The kind that alerts a line's level (R138). -/
def inputKind (l : Line) : AlertKind :=
  match l with
  | .x0 => .inputX0
  | .x1 => .inputX1

theorem condition_inputKind (s : State) (l : Line) : condition s (inputKind l) = lineActive s l := by
  cases l <;> rfl

/-- R151: a line that the load finds active is alerted, in either mode. -/
theorem load_alertsLine (halted : isRunning s = false) {l : Line} {q : PortId}
    (active : lineActive (loadCompleted s) l = true)
    (mask : subscribed (loadCompleted s) q (inputKind l) = true) :
    inputKind l ∈ pendingOf (loadCompleted s) q := by
  have step := loadFollowed_alertsStep s
  have pins : AlertsStep (copiesLoaded (imageToLoad s.store.page) s) (loadFollowed s) := .follow rfl rfl
  have capable : levelCapable (inputKind l) = true := by cases l <;> rfl
  have quiet : condition (copiesLoaded (imageToLoad s.store.page) s) (inputKind l) = false := by
    have stopped : isRunning (copiesLoaded (imageToLoad s.store.page) s) = false := halted
    rw [condition_inputKind, lineActive, stopped, Bool.false_and]
  have before : condition (loadFollowed s) (inputKind l) = true := by
    rw [condition_inputKind, ← (loadFollowed_eventKept s).lineActive_eq]
    exact active
  have maskL : subscribed (loadFollowed s) q (inputKind l) = true := by rwa [step.masks] at mask
  rcases mode_cases (loadFollowed s) (inputKind l) with level | edge
  · have follows : LevelKindsFollow (loadFollowed s) := followConditions_levelKindsFollow _ _
    have pends := (levelKindsFollow_iff _).mp follows q _ capable level
    have awaits : awaitingOf (loadFollowed s) q = [] := by
      rw [pins.awaitingOf_eq]
      simp [awaitingOf, copiesLoaded, freshAlerts]
    rw [step.level q _ capable level pends, levelPending_iff, step.awaitingOf_eq, condition_inputKind,
      awaits]
    exact ⟨mask, active, List.not_mem_nil⟩
  · refine step.stays q _ edge (pins.occurs q _ capable ?_ quiet before ?_)
    · rwa [pins.modeOf_eq] at edge
    · rwa [pins.masks] at maskL

theorem settledLoad_occurrencesStay (outside : s.store.setup = none) :
    OccurrencesStay (settledLoad s) (loadCompleted s) := by
  have begun : OccurrencesStay (settledLoad s) (loadScanning s) := .of_alerts rfl
  rcases loadCompleted_cases outside with eq | eq | eq <;> rw [eq]
  · exact begun
  · exact begun.trans (scanApplied_occurrencesStay _ _)
  · exact begun.trans ((scanApplied_occurrencesStay _ _).trans (periodStartTaken_occurrencesStay true _))

theorem heldLost_loadFollowed (p : PortId) : (loadFollowed s).alerts.heldLost[p] = false := by
  have held : (loadFollowed s).alerts.heldLost = Vector.replicate 4 false := rfl
  rw [held]
  simp

/-- R178: after a good page nothing is held. -/
theorem heldLost_good {page : Image} (holds : s.store.page = .holds page) (good : pageGood page = true)
    (outside : s.store.setup = none) (p : PortId) : (loadCompleted s).alerts.heldLost[p] = false := by
  rw [(settledLoad_occurrencesStay outside).held, settledLoad_announces, announceLoss, holds,
    goodPage_holds good]
  exact heldLost_loadFollowed p

/-- R178: after the factory defaults a SETTINGS-LOST is held at every port. -/
theorem heldLost_bad (bad : ∀ page, s.store.page = .holds page → pageGood page = false)
    (outside : s.store.setup = none) (p : PortId) : (loadCompleted s).alerts.heldLost[p] = true := by
  have image : (loadFollowed s).store.image = factoryImage := imageToLoad_bad bad
  rw [(settledLoad_occurrencesStay outside).held, settledLoad_announces, announceLoss, goodPage_none bad]
  have mask := subscribed_factory image p .settingsLost
  generalize loadFollowed s = x at mask ⊢
  simp [raiseOccurrence, mask]

/-! ## The first completion -/

/-- R5: with a configured probe the first scan waits for its reads. -/
theorem loadCompleted_waits (some : ∃ n, probeLayer (imageToLoad s.store.page) n ≠ none) :
    (loadCompleted s).planner = freshPlanner (imageToLoad s.store.page) ∧
      (loadCompleted s).cycle = freshCycle (imageToLoad s.store.page) ∧
      (loadCompleted s).scanner.scan = Option.some (begunScan (settledLoad s)) := by
  rw [loadCompleted_reads (probed_loadScanning.mpr some), loadScanning_scanner]
  obtain ⟨alerts, eq⟩ := settledLoad_blocks s
  rw [loadScanning, eq]
  exact ⟨rfl, rfl, rfl⟩

theorem loadScanning_planner (s : State) :
    (loadScanning s).planner = freshPlanner (imageToLoad s.store.page) ∧
      (loadScanning s).model = s.model := by
  obtain ⟨alerts, eq⟩ := settledLoad_blocks s
  rw [loadScanning, eq]
  exact ⟨rfl, rfl⟩

/-- R6, R89: with none it completes at once, in NONE, and the first period starts. -/
theorem loadCompleted_starts (unused : ∀ n, probeLayer (imageToLoad s.store.page) n = none)
    (first : s.model.scanCompleted = false) (outside : s.store.setup = none) :
    (loadCompleted s).scanner.scan = none ∧
      (loadCompleted s).model =
        { layers := s.model.layers, state := .none, scanCompleted := true, inversion := false } ∧
      (loadCompleted s).planner.period = 0 ∧
      (∃ n, PeriodBegins n (loadScanning s) (loadCompleted s)) ∧
      ∃ plan, (loadCompleted s).planner.state = .planningFull plan ∧
        planHolds .full (loadCompleted s) plan := by
  have empty : ¬probed (loadScanning s) := by
    rw [probed_loadScanning]
    rintro ⟨n, used⟩
    exact used (unused n)
  obtain ⟨planner, same⟩ := loadScanning_planner s
  have firstS : (loadScanning s).model.scanCompleted = false := by rw [same, first]
  have outsideS := inSetup_loadScanning outside
  obtain ⟨-, begins⟩ := firstCompletion_starts firstS (begunScan (settledLoad s))
  obtain ⟨period, ⟨plan, state, holds⟩, model, -⟩ :=
    firstCompletion_plans firstS outsideS (begunScan (settledLoad s))
  obtain ⟨-, scanner, -⟩ := scanCompleted_blocks (begunScan (settledLoad s)) (.inr outsideS)
  obtain ⟨table, pool⟩ := loadScanning_table s
  obtain ⟨-, -, ranks, -⟩ := GrantsKept.of_fresh (listed := True) (s := loadScanning s) table pool
  rw [← loadCompleted_empty empty] at begins period state holds model scanner
  rw [scanApplied_model_empty rfl (unused_of_not_probed empty), same] at model
  refine ⟨?_, model, period, begins, plan, state, holds ranks ?_⟩
  · rw [scanner, scanApplied_scanner]
  · rw [loadScanning_image]
    exact imageInRange_imageToLoad _

/-- R124: the lines once the pins are read. -/
theorem lineOf_copiesAndPins (s : State) (l : Line) : lineOf (copiesAndPins s) l =
    { pin := (lineOf s l).pin
      activeLevel := linePolarity (imageToLoad s.store.page) l
      settleTime := lineSettle (imageToLoad s.store.page) l
      settled := (lineOf s l).pin
      settling := none } := by
  cases l <;> rfl

theorem exec_startUpLoad (halted : isRunning s = false) (released : s.part.rstnHeld = false)
    (supplied : s.part.supplyHeld = false) : exec .startUpLoad s = .next (loadCompleted s) := by
  show execStartUpLoad s = _
  rw [execStartUpLoad, if_neg (by simp [halted, released, supplied])]

/-- R40, R58: the records and the grants after the load. -/
theorem loadCompleted_sources (outside : s.store.setup = none) (k : SlotId) :
    recordOf (loadCompleted s) k = copiedRecord (imageToLoad s.store.page) k ∧
      (grantOf (loadCompleted s) k).state =
        if (copiedRecord (imageToLoad s.store.page) k).owner = none then .unused else .idle := by
  have records : (copiesAndPins s).table = freshTable (imageToLoad s.store.page) := rfl
  refine ⟨?_, by rw [grantOf_loadCompleted outside, freshGrant_state]⟩
  rw [(loadCompleted_eventKept s).recordOf_eq, recordOf, records]
  simp [freshTable]

/-- R63: the free lists after the load. -/
theorem loadCompleted_freeList (p : PortId) : freeList (loadCompleted s) p =
    portFrames (copiedShares (imageToLoad s.store.page)) p := by
  have pool : (copiesAndPins s).pool = freshPool (imageToLoad s.store.page) := rfl
  rw [(loadCompleted_eventKept s).freeList_eq, freeList, pool]
  simp [freshPool]

theorem loadCompleted_probe (outside : s.store.setup = none) (n : ProbeId) :
    (loadCompleted s).scanner.probes[n] =
      { address := probeAddress (imageToLoad s.store.page) n
        layer := probeLayer (imageToLoad s.store.page) n
        state := if probeLayer (imageToLoad s.store.page) n = none then .unused else .unread
        lastValid := 0, holdCount := 0 } := by
  rw [(loadCompleted_probes outside).1]
  simp only [Fin.getElem_fin, Vector.getElem_ofFn, freshProbe, Fin.eta]
  cases probeLayer (imageToLoad s.store.page) n <;> rfl

end Load

/-- Settles O53, block by block. -/
theorem startUpLoadBringsImage : Obligations.StartUpLoadBringsImage := by
  intro s
  refine ⟨fun barred => ?_, fun halted released supplied outside => ?_⟩
  · show execStartUpLoad s = _
    rw [execStartUpLoad, if_pos]
    rcases barred with bar | bar | bar <;> simp [bar]
  refine ⟨_, exec_startUpLoad halted released supplied, ?_⟩
  have kept := loadCompleted_eventKept s
  have image := loadCompleted_image outside
  have line (l : Line) := (kept.lineOf_eq l).trans (lineOf_copiesAndPins s l)
  intro img
  have img_eq : img = imageToLoad s.store.page := image
  clear_value img
  subst img_eq
  refine ⟨fun page holds good f mem => ?_, fun page holds good => heldLost_good holds good outside,
    ?_, fun bad => ⟨fun f mem => ?_, heldLost_bad bad outside⟩,
    (imageInRange_imageToLoad _).2, kept.isRunning_eq, kept.page, kept.wires,
    loadCompleted_sources outside, kept.shares,
    fun p => ⟨loadCompleted_freeList p, active_loadCompleted outside p⟩, loadCompleted_probe outside,
    (loadCompleted_probes outside).2, fun l => ?_, kept.modes, kept.timeout, kept.periodLength,
    kept.lateThreshold, kept.interval, kept.hold, kept.deadline, kept.tDis, kept.floor,
    fun some => ?_, fun unused first => ?_⟩
  · rw [holds, imageToLoad_good good, fieldValue_loadedImage page f mem]
  · intro kind l q active mask
    have same : kind l = inputKind l := by cases l <;> rfl
    rw [same] at mask ⊢
    exact load_alertsLine halted active mask
  · rw [imageToLoad_bad bad, fieldValue_factoryImage f mem]
  · rw [line l]
    exact ⟨rfl, rfl, rfl, rfl⟩
  · obtain ⟨planner, cycle, scan⟩ := loadCompleted_waits some
    rw [planner, cycle, scan, begunScan_settledLoad]
    exact ⟨rfl, rfl, rfl, rfl, rfl, rfl⟩
  · obtain ⟨scan, model, period, ⟨_, begins⟩, plans⟩ := loadCompleted_starts unused first outside
    have seconds := begins.seconds
    rw [(loadScanning_planner s).1] at seconds
    rw [model]
    exact ⟨scan, rfl, rfl, rfl, rfl, begins.timer, period, seconds, begins.mark, plans⟩

end Sys2Proof.Machine
end

section
/-! SUPPORT. The copies of an accepted exit (R4, R40, R41, R61, R63, R83, R122, R125, R133, R158, R161): in
SETUP no source runs, so that the lines' new polarities end no grant. -/

namespace Sys2Proof.Machine

/-! ## Reply queues only grow -/

/-- R65: no frame leaves a reply queue. -/
def RepliesStay (s t : State) : Prop := ∀ i q, i ∈ replyQueue s q → i ∈ replyQueue t q

theorem RepliesStay.trans {s t u : State} (h : RepliesStay s t) (g : RepliesStay t u) :
    RepliesStay s u := fun i q mem => g i q (h i q mem)

theorem RepliesStay.of_queues {s t : State} (queues : t.pool.replyQueues = s.pool.replyQueues) :
    RepliesStay s t := fun i q mem => by simpa only [replyQueue, queues] using mem

theorem RepliesStay.of_poolKept {s t : State} (kept : poolKept s t) : RepliesStay s t := by
  obtain ⟨-, -, -, queues, -⟩ := kept
  exact .of_queues queues

theorem endRequest_repliesStay (outcome : FrameOutcome) (s : State) (i : FrameId) :
    RepliesStay s (endRequest outcome s i) := by
  intro j q mem
  by_cases held : isHeld s i = true
  · rw [replyQueue_endRequest outcome held]
    split
    · exact List.mem_append_left _ mem
    · exact mem
  · rw [endRequest, if_neg held]
    exact mem

/-- R80: the requests that end join the reply queues of their ports. -/
theorem endRequests_queue (outcome : FrameId → FrameOutcome) (l : List FrameId) (s : State) :
    RepliesStay s (l.foldl (fun t i => endRequest (outcome i) t i) s) ∧
      ∀ i q, i ∈ l → isHeld s i = true → ownerOf s i = some q →
        i ∈ replyQueue (l.foldl (fun t i => endRequest (outcome i) t i) s) q := by
  induction l generalizing s with
  | nil => exact ⟨fun i q mem => mem, fun i q mem => absurd mem List.not_mem_nil⟩
  | cons j rest ih =>
    obtain ⟨stays, joins⟩ := ih (endRequest (outcome j) s j)
    refine ⟨(endRequest_repliesStay _ s j).trans stays, fun i q mem held owner => ?_⟩
    by_cases same : j = i
    · subst same
      refine stays j q ?_
      rw [replyQueue_endRequest _ held, if_pos owner]
      exact List.mem_append_right _ (List.mem_singleton_self j)
    · refine joins i q ((List.mem_cons.mp mem).resolve_left (Ne.symm same)) ?_ ?_
      · rw [isHeld, frameOf_endRequest, if_neg fun h => same h.1]
        exact held
      · rw [(endRequest_moved _ s j).ownerOf_eq]
        exact owner

theorem endRequests_repliesStay (outcome : FrameId → FrameOutcome) (s : State) (ended : FrameId → Bool) :
    RepliesStay s (endRequests outcome s ended) := (endRequests_queue outcome _ s).1

/-! ## With no source RUNNING -/

section Rest
variable {s : State}

theorem runningSlots_rest (rest : AtRest s) : runningSlots s = [] :=
  List.filter_eq_nil_iff.mpr fun k _ => by
    simpa [isGrantRunning] using rest k

theorem lineEffects_rest (before : State) (l : Line) (rest : AtRest s) : lineEffects before l s = s := by
  have none := runningSlots_rest rest
  unfold lineEffects
  split
  · cases l
    · simp only [lineBecameActive, revokePaidBlock, none, List.filter_nil]
      rfl
    · simp only [lineBecameActive, revokeAll, none]
      rfl
  · rfl

/-- R122, R125: the lines with their copies. -/
def linesCopied (img : Image) (x : SafetyMonitor) : SafetyMonitor :=
  { x with x0 := exitLine img .x0 x.x0, x1 := exitLine img .x1 x.x1 }

theorem exitLines_rest (rest : AtRest s) :
    exitLines s = s.setSafety (linesCopied s.store.image s.safety) := by
  have still : AtRest (s.setSafety (linesCopied s.store.image s.safety)) := rest
  unfold exitLines
  dsimp only
  rw [← linesCopied, lineEffects_rest _ _ still, lineEffects_rest _ _ still]

theorem planCopied_runsFewer (s : State) : runsFewer s (planCopied s) := by
  have probes : runsFewer s (s.setScanner
      { s.scanner with probes := each s.scanner.probes (exitProbe s.store.image) }) := .of_table rfl
  have pool : runsFewer s (poolCopied s) :=
    probes.trans ((exitSources_runsFewer _).trans (exitShares_runsFewer _))
  exact pool.trans (.of_table (State.setPlanner_table (poolCopied s) _))

theorem planCopied_store (s : State) : (planCopied s).store = s.store := by
  rw [planCopied, State.setPlanner_store, (poolCopied_alerts s).2]

/-- R174: the blocks at an accepted exit with no source RUNNING. -/
theorem exitCopies_rest (rest : AtRest s) : exitCopies s =
    (((planCopied s).setSafety (linesCopied s.store.image (planCopied s).safety)).setCycle
      (adjustedCycle s.store.image (planCopied s).cycle)).setPorts
        (exitTimeout s.store.image (planCopied s).ports) := by
  have still : AtRest (planCopied s) := rest.fewer (planCopied_runsFewer s)
  have lines := exitLines_rest still
  rw [planCopied_store] at lines
  have copies : exitCopies s = ((exitLines (planCopied s)).setCycle
      (adjustedCycle s.store.image (exitLines (planCopied s)).cycle)).setPorts
        (exitTimeout s.store.image (exitLines (planCopied s)).ports) := rfl
  rw [copies, lines]
  rfl

/-- The scanner's copies taken, nothing else. -/
def probesCopied (s : State) : State :=
  s.setScanner { s.scanner with probes := each s.scanner.probes (exitProbe s.store.image) }

theorem poolCopied_eq (s : State) : poolCopied s = exitShares (exitSources (probesCopied s)) := rfl

theorem exitShares_eq (s : State) : exitShares s = s.setPool
    { s.pool with
      shares := copiedShares s.store.image
      freeLists := if copiedShares s.store.image = s.pool.shares then s.pool.freeLists
                   else Vector.ofFn (portFrames (copiedShares s.store.image)) } := by
  unfold exitShares
  dsimp only
  split
  · rename_i same
    rw [same]
    rfl
  · rfl

theorem exitSources_moved (s : State) : SourcesMoved (recordsCopied s) (exitSources s) :=
  endRequests_moved _ _ _

/-- R174: the blocks that the copies to the scanner, the sources and the pool do not reach. -/
theorem poolCopied_blocks (s : State) : (poolCopied s).part = s.part ∧
    (poolCopied s).safety = s.safety ∧ (poolCopied s).cycle = s.cycle ∧ (poolCopied s).ports = s.ports ∧
    (poolCopied s).wires = s.wires ∧ (poolCopied s).scanner = (probesCopied s).scanner ∧
    (poolCopied s).pool.postLists = s.pool.postLists := by
  have moved := exitSources_moved (probesCopied s)
  rw [poolCopied_eq, exitShares_eq]
  refine ⟨moved.part_eq, moved.safety_eq, moved.cycle_eq, moved.ports_eq, moved.wires_eq,
    moved.scanner_eq, ?_⟩
  exact moved.2.2.2.2

theorem recordOf_poolCopied (s : State) (k : SlotId) :
    recordOf (poolCopied s) k = copiedRecord s.store.image k := by
  have moved := exitSources_moved (probesCopied s)
  have same : recordOf (poolCopied s) k = recordOf (exitSources (probesCopied s)) k := by
    rw [poolCopied_eq, exitShares_eq]
    rfl
  rw [same, moved.recordOf_eq, recordOf_recordsCopied]
  rfl

theorem grantOf_poolCopied (s : State) (k : SlotId) :
    grantOf (poolCopied s) k = exitGrant s k (grantOf s k) := by
  have same : grantOf (poolCopied s) k = grantOf (exitSources (probesCopied s)) k := by
    rw [poolCopied_eq, exitShares_eq]
    rfl
  rw [same, grantOf_exitSources]
  rfl

theorem isHeld_of_isWithdrawn {i : FrameId} (withdrawn : isWithdrawn s i = true) : isHeld s i = true := by
  unfold isWithdrawn at withdrawn
  cases slot : heldSlot s i with
  | none => simp [slot] at withdrawn
  | some k => exact (heldSlot_held s i k slot).1

theorem frameOf_poolCopied (s : State) (i : FrameId) : frameOf (poolCopied s) i =
    if isWithdrawn s i = true then reportedFrame .withdrawn s.planner.period (frameOf s i)
    else frameOf s i := by
  have same : frameOf (poolCopied s) i = frameOf (exitSources (probesCopied s)) i := by
    rw [poolCopied_eq, exitShares_eq]
    rfl
  have ends := frameOf_endRequests (fun _ => FrameOutcome.withdrawn) (recordsCopied (probesCopied s))
    (isWithdrawn (probesCopied s)) i
  rw [← exitSources_eq] at ends
  rw [same, ends]
  by_cases withdrawn : isWithdrawn s i = true
  · have held := isHeld_of_isWithdrawn withdrawn
    rw [if_pos withdrawn]
    exact if_pos ⟨withdrawn, held⟩
  · rw [if_neg withdrawn]
    exact if_neg fun h => withdrawn h.1

theorem replyQueue_poolCopied {i : FrameId} {q : PortId} (withdrawn : isWithdrawn s i = true)
    (owner : ownerOf s i = some q) : i ∈ replyQueue (poolCopied s) q := by
  have held := isHeld_of_isWithdrawn withdrawn
  have joins := (endRequests_queue (fun _ => FrameOutcome.withdrawn)
    (allFrames.filter (isWithdrawn (probesCopied s))) (recordsCopied (probesCopied s))).2 i q
    (List.mem_filter.mpr ⟨mem_allFrames i, withdrawn⟩) held owner
  rw [poolCopied_eq, exitShares_eq]
  exact joins

theorem lists_poolCopied (s : State) : (poolCopied s).pool.shares = copiedShares s.store.image ∧
    (copiedShares s.store.image = s.pool.shares → (poolCopied s).pool.freeLists = s.pool.freeLists) ∧
    (copiedShares s.store.image ≠ s.pool.shares →
      (poolCopied s).pool.freeLists = Vector.ofFn (portFrames (copiedShares s.store.image))) := by
  have moved := exitSources_moved (probesCopied s)
  have image : (exitSources (probesCopied s)).store.image = s.store.image := by
    rw [moved.store_eq]
    rfl
  have shares : (exitSources (probesCopied s)).pool.shares = s.pool.shares := moved.2.2.1
  have free : (exitSources (probesCopied s)).pool.freeLists = s.pool.freeLists := moved.2.2.2.1
  rw [poolCopied_eq, exitShares_eq, State.setPool_pool, image, shares, free]
  exact ⟨rfl, fun same => if_pos same, fun changed => if_neg changed⟩

end Rest

end Sys2Proof.Machine
end

section
/-! SUPPORT. The state in which an accepted exit ends setup (R147, R174), block by block. -/

namespace Sys2Proof.Machine

section Taken
variable {s : State}

/-- The state once the modes have changed. -/
def modesChanged (s : State) : State := changeModes (copiedModes s.store.image) s

theorem modesChanged_eq (s : State) : modesChanged s = s.setAlerts (modesChanged s).alerts :=
  changeModes_eq (copiedModes s.store.image) s

theorem modesChanged_blocks (s : State) : (modesChanged s).part = s.part ∧
    (modesChanged s).wires = s.wires ∧ (modesChanged s).scanner = s.scanner ∧
    (modesChanged s).safety = s.safety ∧ (modesChanged s).cycle = s.cycle ∧
    (modesChanged s).ports = s.ports ∧ (modesChanged s).pool = s.pool ∧
    (modesChanged s).table = s.table ∧ (modesChanged s).store = s.store ∧
    (modesChanged s).planner = s.planner := by
  rw [modesChanged_eq]
  generalize (modesChanged s).alerts = x
  exact ⟨rfl, rfl, rfl, rfl, rfl, rfl, rfl, rfl, rfl, rfl⟩

theorem exitTaken_eq (s : State) :
    exitTaken s = followConditions (modesChanged s) (exitCopies (modesChanged s)) := rfl

/-- R174: an accepted exit with no source RUNNING. -/
theorem exitTaken_rest (rest : AtRest s) : ∃ planner alerts, exitTaken s =
    (((((poolCopied (modesChanged s)).setPlanner planner).setSafety
      (linesCopied s.store.image s.safety)).setCycle (adjustedCycle s.store.image s.cycle)).setPorts
        (exitTimeout s.store.image s.ports)).setAlerts alerts := by
  obtain ⟨-, -, -, safetyM, cycleM, portsM, -, table, store, -⟩ := modesChanged_blocks s
  have still : AtRest (modesChanged s) := fun k => by
    rw [grantOf, table]
    exact rest k
  obtain ⟨-, safety, cycle, ports, -⟩ := poolCopied_blocks (modesChanged s)
  have copies := exitCopies_rest still
  rw [planCopied, State.setPlanner_safety, State.setPlanner_cycle, State.setPlanner_ports, safety, cycle,
    ports, store, safetyM, cycleM, portsM] at copies
  rw [exitTaken_eq, followConditions_eq, copies]
  exact ⟨_, _, rfl⟩

theorem exitTaken_blocks (rest : AtRest s) :
    (exitTaken s).part = s.part ∧ (exitTaken s).wires = s.wires ∧
      (exitTaken s).scanner = (probesCopied s).scanner ∧
      (exitTaken s).safety = linesCopied s.store.image s.safety ∧
      (exitTaken s).cycle = adjustedCycle s.store.image s.cycle ∧
      (exitTaken s).ports = exitTimeout s.store.image s.ports ∧
      (exitTaken s).pool = (poolCopied (modesChanged s)).pool ∧
      (exitTaken s).table = (poolCopied (modesChanged s)).table := by
  obtain ⟨part, -, -, -, wires, scanner, -⟩ := poolCopied_blocks (modesChanged s)
  obtain ⟨partM, wiresM, scannerM, -, -, -, -, -, store, -⟩ := modesChanged_blocks s
  have probes : (probesCopied (modesChanged s)).scanner = (probesCopied s).scanner := by
    rw [probesCopied, State.setScanner_scanner, scannerM, store]
    rfl
  obtain ⟨planner, alerts, eq⟩ := exitTaken_rest rest
  rw [eq, ← partM, ← part, ← wiresM, ← wires, ← probes, ← scanner]
  generalize poolCopied (modesChanged s) = x
  exact ⟨rfl, rfl, rfl, rfl, rfl, rfl, rfl, rfl⟩

/-! ## Sources and requests -/

theorem slotRenewed_iff (s : State) (k : SlotId) :
    takenAsNew (recordOf s k) (copiedRecord s.store.image k) = true ↔ slotRenewed s k := by
  rw [slotRenewed, takenAsNew, Bool.and_eq_true, Option.isSome_iff_ne_none]
  simp only [Bool.or_eq_true, bne_iff_ne, or_assoc, ne_comm (a := (recordOf s k).owner),
    ne_comm (a := (recordOf s k).sourceClass), ne_comm (a := (recordOf s k).coilBottom),
    ne_comm (a := (recordOf s k).coilTop)]

theorem slotEmptied_iff (s : State) (k : SlotId) :
    madeUnused (recordOf s k) (copiedRecord s.store.image k) = true ↔ slotEmptied s k := by
  rw [slotEmptied, madeUnused, Bool.and_eq_true, Option.isNone_iff_eq_none, Option.isSome_iff_ne_none]

theorem losesRequest_iff (s : State) (k : SlotId) :
    losesRequest s k = true ↔ slotRenewed s k ∨ slotEmptied s k := by
  rw [losesRequest, Bool.or_eq_true, slotRenewed_iff, slotEmptied_iff]

theorem exitGrant_renewed {k : SlotId} {g : GrantRecord} (renewed : slotRenewed s k) :
    exitGrant s k g = clearedGrant .idle g.rank := by
  rw [exitGrant, if_pos ((slotRenewed_iff s k).mpr renewed)]

theorem exitGrant_emptied {k : SlotId} {g : GrantRecord} (emptied : slotEmptied s k) :
    exitGrant s k g = clearedGrant .unused g.rank := by
  have kept : ¬takenAsNew (recordOf s k) (copiedRecord s.store.image k) = true := by
    rw [slotRenewed_iff]
    exact fun renewed => renewed.1 emptied.1
  rw [exitGrant, if_neg kept, if_pos ((slotEmptied_iff s k).mpr emptied)]

theorem exitGrant_kept {k : SlotId} {g : GrantRecord} (old : ¬slotRenewed s k) (owned : ¬slotEmptied s k) :
    exitGrant s k g = g := by
  rw [exitGrant, if_neg (mt (slotRenewed_iff s k).mp old), if_neg (mt (slotEmptied_iff s k).mp owned)]

theorem isWithdrawn_iff (s : State) (i : FrameId) : isWithdrawn s i = true ↔
    ∃ k, heldSlot s i = some k ∧ (slotRenewed s k ∨ slotEmptied s k) := by
  unfold isWithdrawn
  cases heldSlot s i with
  | none => simp
  | some k => simp [losesRequest_iff]

theorem readers_modesChanged (s : State) : (∀ k, recordOf (modesChanged s) k = recordOf s k) ∧
    (∀ k, grantOf (modesChanged s) k = grantOf s k) ∧
    (∀ i, frameOf (modesChanged s) i = frameOf s i) ∧
    (∀ i, ownerOf (modesChanged s) i = ownerOf s i) := by
  obtain ⟨-, -, -, -, -, -, pool, table, -, -⟩ := modesChanged_blocks s
  simp only [recordOf, grantOf, frameOf, ownerOf, pool, table, implies_true, and_self]

theorem losesRequest_modesChanged (k : SlotId) :
    losesRequest (modesChanged s) k = losesRequest s k := by
  obtain ⟨-, -, -, -, -, -, -, -, store, -⟩ := modesChanged_blocks s
  simp only [losesRequest, store, (readers_modesChanged s).1]

theorem isWithdrawn_modesChanged (i : FrameId) : isWithdrawn (modesChanged s) i = isWithdrawn s i := by
  have slot := heldSlot_of_frame s (modesChanged s) i ((readers_modesChanged s).2.2.1 i)
  simp only [isWithdrawn, slot, losesRequest_modesChanged]

theorem grantOf_exitTaken (rest : AtRest s) (k : SlotId) :
    grantOf (exitTaken s) k = exitGrant s k (grantOf s k) := by
  obtain ⟨-, -, -, -, -, -, -, table⟩ := exitTaken_blocks rest
  obtain ⟨record, grant, -⟩ := readers_modesChanged s
  obtain ⟨-, -, -, -, -, -, -, -, store, -⟩ := modesChanged_blocks s
  have copied := grantOf_poolCopied (modesChanged s) k
  rw [exitGrant, store, record, grant] at copied
  rw [grantOf, table]
  exact copied

theorem recordOf_exitTaken (rest : AtRest s) (k : SlotId) :
    recordOf (exitTaken s) k = copiedRecord s.store.image k := by
  obtain ⟨-, -, -, -, -, -, -, table⟩ := exitTaken_blocks rest
  obtain ⟨-, -, -, -, -, -, -, -, store, -⟩ := modesChanged_blocks s
  have copied := recordOf_poolCopied (modesChanged s) k
  rw [store] at copied
  rw [recordOf, table]
  exact copied

theorem frameOf_exitTaken (rest : AtRest s) (i : FrameId) : frameOf (exitTaken s) i =
    if isWithdrawn s i = true then reportedFrame .withdrawn s.planner.period (frameOf s i)
    else frameOf s i := by
  obtain ⟨-, -, -, -, -, -, pool, -⟩ := exitTaken_blocks rest
  obtain ⟨-, -, -, -, -, -, -, -, -, planner⟩ := modesChanged_blocks s
  obtain ⟨-, -, frame, -⟩ := readers_modesChanged s
  have copied := frameOf_poolCopied (s := modesChanged s) i
  rw [isWithdrawn_modesChanged, planner, frame] at copied
  rw [← copied, frameOf, pool]
  rfl

theorem replyQueue_exitTaken (rest : AtRest s) {i : FrameId} {q : PortId}
    (withdrawn : isWithdrawn s i = true) (owner : ownerOf s i = some q) :
    i ∈ replyQueue (exitTaken s) q := by
  obtain ⟨-, -, -, -, -, -, pool, -⟩ := exitTaken_blocks rest
  obtain ⟨-, -, -, owners⟩ := readers_modesChanged s
  have joins := replyQueue_poolCopied (s := modesChanged s) (i := i) (q := q)
    (by rw [isWithdrawn_modesChanged, withdrawn]) (by rw [owners, owner])
  rw [replyQueue, pool]
  exact joins

theorem lists_exitTaken (rest : AtRest s) :
    (exitTaken s).pool.postLists = s.pool.postLists ∧
    (copiedShares s.store.image = s.pool.shares → (exitTaken s).pool.freeLists = s.pool.freeLists) ∧
    (copiedShares s.store.image ≠ s.pool.shares →
      (exitTaken s).pool.freeLists = Vector.ofFn (portFrames (copiedShares s.store.image))) := by
  obtain ⟨-, -, -, -, -, -, pool, -⟩ := exitTaken_blocks rest
  obtain ⟨-, -, -, -, -, -, poolM, -, store, -⟩ := modesChanged_blocks s
  obtain ⟨-, -, -, -, -, -, post⟩ := poolCopied_blocks (modesChanged s)
  obtain ⟨-, same, changed⟩ := lists_poolCopied (modesChanged s)
  rw [poolM] at post
  rw [store, poolM] at same changed
  rw [pool]
  exact ⟨post, same, changed⟩

theorem heldSlot_exitTaken (rest : AtRest s) (i : FrameId) : heldSlot (exitTaken s) i =
    if isWithdrawn s i = true then none else heldSlot s i := by
  have frame := frameOf_exitTaken rest i
  by_cases withdrawn : isWithdrawn s i = true
  · rw [if_pos withdrawn] at frame ⊢
    exact heldSlot_of_not_isHeld (isHeld_of_state (st := .reported) (by rw [frame]; rfl) (by simp))
  · rw [if_neg withdrawn] at frame ⊢
    exact heldSlot_of_frame _ _ i frame

theorem atRest_exitTaken (rest : AtRest s) : AtRest (exitTaken s) := rest.fewer (exitTaken_runsFewer s)

end Taken

end Sys2Proof.Machine
end

section
/-! SUPPORT. The end of setup with no source RUNNING (R5, R6, R52, R79, R90, R131, R159): what its period start
and its empty completion make of the sources, the requests, the ports and the cycle. -/

namespace Sys2Proof.Machine

/-- From `s` to `t` the sources, the requests, the ports and the cycle stand. -/
structure RestAlike (s t : State) : Prop where
  grant : ∀ k, grantOf t k = grantOf s k
  frame : ∀ i, frameOf t i = frameOf s i
  port : ∀ p, portOf t p = portOf s p
  timeout : t.ports.timeout = s.ports.timeout
  replies : RepliesStay s t
  cycle : t.cycle = s.cycle

namespace RestAlike
variable {s t u : State}

theorem of_blocks (table : t.table = s.table) (pool : t.pool = s.pool) (ports : t.ports = s.ports)
    (cycle : t.cycle = s.cycle) : RestAlike s t where
  grant k := by simp only [grantOf, table]
  frame i := by simp only [frameOf, pool]
  port p := by simp only [portOf, ports]
  timeout := by rw [ports]
  replies := .of_queues (by rw [pool])
  cycle := cycle

theorem refl (s : State) : RestAlike s s := of_blocks rfl rfl rfl rfl

theorem trans (h : RestAlike s t) (g : RestAlike t u) : RestAlike s u where
  grant k := (g.grant k).trans (h.grant k)
  frame i := (g.frame i).trans (h.frame i)
  port p := (g.port p).trans (h.port p)
  timeout := g.timeout.trans h.timeout
  replies := h.replies.trans g.replies
  cycle := g.cycle.trans h.cycle

theorem heldSlot_eq (h : RestAlike s t) (i : FrameId) : heldSlot t i = heldSlot s i :=
  heldSlot_of_frame s t i (h.frame i)

theorem lapses_iff (h : RestAlike s t) (i : FrameId) : lapses t i ↔ lapses s i := by
  simp only [lapses, h.frame]

theorem stoppedCounted (h : RestAlike s t) {k : SlotId} {g : GrantRecord} (counted : StoppedCounted t k g) :
    StoppedCounted s k g := by
  obtain ⟨waiting, restsOn, rested, still⟩ := counted
  simp only [h.grant, h.heldSlot_eq, h.lapses_iff, heldFor_of_heldSlot s t h.heldSlot_eq]
    at waiting restsOn rested still
  exact ⟨waiting, restsOn, rested, still⟩

theorem atRest (h : RestAlike s t) (rest : AtRest s) : AtRest t := fun k => by
  rw [h.grant]
  exact rest k

end RestAlike

section Rest
variable {s : State}

/-- R15, R17: with no source RUNNING a completion with nothing read reaches none of them. -/
theorem scanApplied_restAlike {scan : Scan} (rest : AtRest s) (nothing : scan.results = [])
    (empty : ¬probed s) : RestAlike s (scanApplied scan s) where
  grant k := grantOf_scanApplied_other scan s k (rest k)
  frame i := frameOf_scanApplied_other scan s i fun k _ => rest k
  port p := by simp only [portOf, scanApplied_ports]
  timeout := by rw [scanApplied_ports]
  replies := by
    have none : (scanApplied scan s).model.state = .none := (scanApplied_empty nothing empty).2.1
    exact .of_poolKept (scanApplied_none none).1
  cycle := scanApplied_cycle scan s

theorem setupLeft_restAlike (s : State) : RestAlike s (setupLeft s) := .of_blocks rfl rfl rfl rfl

theorem probed_periodStartTaken (first : Bool) : probed (periodStartTaken first s) ↔ probed s := by
  rw [probed, periodStartTaken_scanner, probed]

/-- R90: the end of setup begins a scan and nothing else, or starts one period. -/
theorem endSetup_rest (rest : AtRest s) (follows : s.planner.timerRunning = s.model.scanCompleted) :
    (s.planner.timerRunning = false ∧ probed s ∧ RestAlike s (endSetup s)) ∨
      ∃ first x, RestAlike s x ∧ RestAlike (periodStartTaken first x) (endSetup s) := by
  have left := setupLeft_restAlike s
  have still : AtRest (setupLeft s) := left.atRest rest
  by_cases some : probed s
  · rw [endSetup_probed some]
    cases timer : s.planner.timerRunning with
    | true =>
      rw [periodStartOfR90_timed timer]
      exact .inr ⟨false, _, left, .refl _⟩
    | false =>
      rw [periodStartOfR90_still timer]
      exact .inl ⟨rfl, some, left⟩
  · have empty : ¬probed (setupLeft s) := some
    have applied := left.trans (scanApplied_restAlike (scan := begunScan s) still rfl empty)
    refine .inr ?_
    rcases endSetup_unprobed some with ⟨-, eq⟩ | eq <;> rw [eq]
    · exact ⟨false, _, applied, .refl _⟩
    · cases timer : s.planner.timerRunning with
      | true =>
        rw [periodStartOfR90_timed timer, endSetup_firstPeriodStart]
        · exact ⟨false, _, left, scanApplied_restAlike (still.fewer (periodStartTaken_runsFewer false _))
            rfl (mt (probed_periodStartTaken false).mp empty)⟩
        · rw [periodStartTaken_model]
          exact follows.symm.trans timer
      | false =>
        have first : (setupLeft s).model.scanCompleted = false := follows.symm.trans timer
        rw [periodStartOfR90_still timer, firstPeriodStart, first]
        exact ⟨true, _, applied, .refl _⟩

/-! ## A period start on sources at rest -/

theorem pool_countSilence (s : State) :
    (countSilence s).pool = (endGrants .portSilent s (silentSlots s)).pool := by
  unfold countSilence
  dsimp only
  split <;> rfl

theorem periodStartTaken_repliesStay (first : Bool) (s : State) :
    RepliesStay s (periodStartTaken first s) := by
  have aged (x : State) : RepliesStay x (ageRequests x) := .of_queues (by simp [ageRequests, eachFrame])
  have sources (x : State) : RepliesStay x (countSources x) :=
    .of_queues (by simp [countSources, countPeriodsRun, eachFrame, eachGrant])
  have advanced : RepliesStay s (advancePeriod first s) := by
    rw [advancePeriod_eq]
    exact .of_queues (by rw [State.setPlanner_pool])
  have raised (x : State) : RepliesStay x (raiseOccurrence .periodStart x) := by
    rw [raiseOccurrence_eq]
    exact .of_queues (by rw [State.setAlerts_pool])
  have counted : RepliesStay s (countedState first s) :=
    advanced.trans ((raised _).trans ((sources _).trans (aged _)))
  have silenced : RepliesStay (countedState first s) (silencedCounted first s) :=
    .of_poolKept silencedCounted_kept
  have expired : RepliesStay (silencedCounted first s) (expiredState first s) := by
    unfold expiredState expireRequests
    dsimp only
    rw [endGrantOfs_eq]
    exact (RepliesStay.of_poolKept (endGrants_kept _ _ _)).trans (endRequests_repliesStay _ _ _)
  have cycled : RepliesStay (expiredState first s) (evaluateCycle (expiredState first s)) := by
    refine .of_queues ?_
    rw [evaluateCycle_eq, State.setAlerts_pool, State.setCycle_pool]
  have silent : RepliesStay (evaluateCycle (expiredState first s))
      (countSilence (evaluateCycle (expiredState first s))) := by
    have ended := RepliesStay.of_poolKept (endGrants_kept .portSilent
      (evaluateCycle (expiredState first s)) (silentSlots (evaluateCycle (expiredState first s))))
    exact ended.trans (.of_queues (by rw [pool_countSilence]))
  have planned : RepliesStay (periodCounted first s) (periodStartTaken first s) := by
    refine .of_queues ?_
    rw [periodStartTaken_eq, planAtPeriodStart_eq, beforePlan, takeSnapshot_eq]
    simp only [State.nextDraw_pool, State.setPlanner_pool]
  exact counted.trans (silenced.trans (expired.trans (cycled.trans (silent.trans planned))))

/-- R79, R82: a frame that is not HELD stands at a period start. -/
theorem frameOf_periodStartTaken_notHeld {first : Bool} {i : FrameId} (out : isHeld s i = false) :
    frameOf (periodStartTaken first s) i = frameOf s i := by
  have unslotted : heldSlot s i = none := heldSlot_of_not_isHeld out
  have unexpired : ¬expires (countedState first s) i = true := fun due => by
    have held := isHeld_of_expires due
    have state := state_countedState first s i
    have aged : agedFrame (frameOf s i) = frameOf s i := by
      unfold agedFrame
      unfold isHeld at out
      split <;> simp_all
    rw [aged] at state
    have same : isHeld (countedState first s) i = isHeld s i := by simp only [isHeld, state]
    rw [same, out] at held
    cases held
  rw [frameOf_periodStartTaken_unslotted unslotted, if_neg unexpired]
  unfold agedFrame
  unfold isHeld at out
  split <;> simp_all

/-- R131: a cycle that is OFF stands at a period start. -/
theorem cycle_periodStartTaken_off {first : Bool} (off : s.cycle.state = .off) :
    (periodStartTaken first s).cycle = s.cycle := by
  rw [cycle_periodStartTaken, cycleEvaluated, off]

theorem endSetup_repliesStay (rest : AtRest s)
    (follows : s.planner.timerRunning = s.model.scanCompleted) : RepliesStay s (endSetup s) := by
  rcases endSetup_rest rest follows with ⟨-, -, alike⟩ | ⟨first, x, before, after⟩
  · exact alike.replies
  · exact before.replies.trans ((periodStartTaken_repliesStay first x).trans after.replies)

theorem frameOf_endSetup_notHeld (rest : AtRest s)
    (follows : s.planner.timerRunning = s.model.scanCompleted) {i : FrameId} (out : isHeld s i = false) :
    frameOf (endSetup s) i = frameOf s i := by
  rcases endSetup_rest rest follows with ⟨-, -, alike⟩ | ⟨first, x, before, after⟩
  · exact alike.frame i
  · have outX : isHeld x i = false := by
      rw [isHeld, before.frame]
      exact out
    rw [after.frame, frameOf_periodStartTaken_notHeld outX, before.frame]

/-- R52: the grant records at the end of setup. -/
theorem grantOf_endSetup (rest : AtRest s)
    (follows : s.planner.timerRunning = s.model.scanCompleted) (k : SlotId) :
    (grantOf (endSetup s) k).rank = (grantOf s k).rank ∧
      ((s.planner.timerRunning = false ∧ probed s ∧ grantOf (endSetup s) k = grantOf s k) ∨
        StoppedCounted s k (grantOf (endSetup s) k)) := by
  rcases endSetup_rest rest follows with ⟨timer, some, alike⟩ | ⟨first, x, before, after⟩
  · rw [alike.grant]
    exact ⟨rfl, .inl ⟨timer, some, rfl⟩⟩
  · rw [after.grant]
    refine ⟨(periodStartTaken_counts first x k).2.trans (by rw [before.grant]), .inr ?_⟩
    exact before.stoppedCounted (periodStartTaken_stoppedCounted first x k)

theorem cycle_endSetup_off (rest : AtRest s)
    (follows : s.planner.timerRunning = s.model.scanCompleted) (off : s.cycle.state = .off) :
    (endSetup s).cycle = s.cycle := by
  rcases endSetup_rest rest follows with ⟨-, -, alike⟩ | ⟨first, x, before, after⟩
  · exact alike.cycle
  · have offX : x.cycle.state = .off := by rw [before.cycle, off]
    rw [after.cycle, cycle_periodStartTaken_off offX, before.cycle]

/-- R159: the ports at the end of setup with the timer running. -/
theorem portOf_endSetup_timed (rest : AtRest s)
    (follows : s.planner.timerRunning = s.model.scanCompleted) (timer : s.planner.timerRunning = true)
    (p : PortId) :
    ((portOf s p).active = false ∨ s.ports.timeout = 0 → portOf (endSetup s) p = portOf s p) ∧
      ((portOf s p).active = true → 1 ≤ s.ports.timeout → portOf (endSetup s) p =
        { portOf s p with
          silence := min 255 ((portOf s p).silence + 1)
          active := decide (min 255 ((portOf s p).silence + 1) < s.ports.timeout) }) := by
  rcases endSetup_rest rest follows with ⟨still, -⟩ | ⟨first, x, before, after⟩
  · rw [timer] at still
    cases still
  · rw [after.port, ← before.port, ← before.timeout]
    exact ⟨portOf_periodStartTaken_stands, portOf_periodStartTaken_counts⟩

end Rest

end Sys2Proof.Machine
end

section
/-! SUPPORT. What an accepted exit leaves in the scanner, the cycle, the ports and the alert sets (R4, R5, R133,
R142, R143, R147, R161). -/

namespace Sys2Proof.Machine

section Exit
variable {s : State}

/-! ## Scanner -/

theorem exitProbe_kept {img : Image} {n : ProbeId} {slot : ProbeSlot}
    (address : slot.address = probeAddress img n) (layer : slot.layer = probeLayer img n) :
    exitProbe img n slot = slot := if_pos ⟨address, layer⟩

theorem exitProbe_changed {img : Image} {n : ProbeId} {slot : ProbeSlot}
    (changed : slot.address ≠ probeAddress img n ∨ slot.layer ≠ probeLayer img n) :
    exitProbe img n slot =
      { address := probeAddress img n, layer := probeLayer img n
        state := if probeLayer img n = none then .unused else .unread
        lastValid := 0, holdCount := 0 } := by
  have differs : ¬(slot.address = probeAddress img n ∧ slot.layer = probeLayer img n) := by
    rw [Classical.not_and_iff_not_or_not]
    exact changed
  rw [exitProbe, if_neg differs, freshProbe]
  cases probeLayer img n <;> rfl

theorem exitProbe_layer (img : Image) (n : ProbeId) (slot : ProbeSlot) :
    (exitProbe img n slot).layer = probeLayer img n := by
  unfold exitProbe
  split
  · rename_i same
    exact same.2
  · rfl

theorem probes_exitTaken (rest : AtRest s) (n : ProbeId) : (exitTaken s).scanner.probes[n] =
    exitProbe s.store.image n s.scanner.probes[n] := by
  obtain ⟨-, -, scanner, -⟩ := exitTaken_blocks rest
  rw [scanner, probesCopied, State.setScanner_scanner]
  simp

theorem layer_exitTaken (rest : AtRest s) (n : ProbeId) :
    ((exitTaken s).scanner.probes[n]).layer = probeLayer s.store.image n := by
  rw [probes_exitTaken rest, exitProbe_layer]

theorem probed_exitTaken (rest : AtRest s) :
    probed (exitTaken s) ↔ ∃ n, probeLayer s.store.image n ≠ none := by
  simp only [probed, layer_exitTaken rest]

theorem exitTaken_image : (exitTaken s).store.image = s.store.image := by rw [exitTaken_store]

/-- R5: the scan that begins as an accepted exit ends setup. -/
theorem scan_exitTaken (rest : AtRest s) (some : probed (exitTaken s)) :
    (endSetup (exitTaken s)).scanner.interval = (imageByte s.store.image 0x020).toNat ∧
      (endSetup (exitTaken s)).scanner.scan = Option.some
        { toRead := (List.finRange 8).filter fun n => (probeLayer s.store.image n).isSome
          results := []
          holdLimit := (imageByte s.store.image 0x021).toNat
          inversionMargin := (imageWord s.store.image 0x022).toNat
          tLimit := (imageWord s.store.image 0x02A).toInt
          hysteresis := (imageWord s.store.image 0x02C).toNat } := by
  rw [endSetup_scanner some]
  simp only [beginScan, State.setScanner_scanner, exitTaken_image, configuredSlots, layer_exitTaken rest]
  exact ⟨rfl, rfl⟩

/-! ## Cycle -/

theorem adjustedCycle_settings (img : Image) (c : DisinfectionCycle) :
    (adjustedCycle img c).interval = disinfectionInterval img ∧
      (adjustedCycle img c).hold = disinfectionHold img ∧
      (adjustedCycle img c).deadline = disinfectionDeadline img ∧
      (adjustedCycle img c).tDis = tDis img ∧ (adjustedCycle img c).floor = comfortFloor img := by
  unfold adjustedCycle
  dsimp only
  split
  · exact ⟨rfl, rfl, rfl, rfl, rfl⟩
  · split <;> exact ⟨rfl, rfl, rfl, rfl, rfl⟩

theorem adjustedCycle_off {img : Image} (c : DisinfectionCycle) (zero : disinfectionInterval img = 0) :
    (adjustedCycle img c).state = .off ∧ (adjustedCycle img c).sinceSuccess = 0 ∧
      (adjustedCycle img c).sinceDue = 0 ∧ (adjustedCycle img c).holdCount = 0 := by
  rw [adjustedCycle, if_pos zero]
  exact ⟨rfl, rfl, rfl, rfl⟩

theorem adjustedCycle_started {img : Image} {c : DisinfectionCycle}
    (positive : disinfectionInterval img ≠ 0) (was : c.interval = 0) :
    (adjustedCycle img c).state = .counting ∧ (adjustedCycle img c).sinceSuccess = 0 ∧
      (adjustedCycle img c).sinceDue = 0 ∧ (adjustedCycle img c).holdCount = 0 := by
  rw [adjustedCycle, if_neg positive, if_pos was]
  exact ⟨rfl, rfl, rfl, rfl⟩

theorem adjustedCycle_goesOn {img : Image} {c : DisinfectionCycle}
    (positive : disinfectionInterval img ≠ 0) (was : c.interval ≠ 0) :
    (adjustedCycle img c).state = c.state ∧ (adjustedCycle img c).sinceSuccess = c.sinceSuccess ∧
      (adjustedCycle img c).sinceDue = c.sinceDue ∧ (adjustedCycle img c).holdCount = c.holdCount := by
  rw [adjustedCycle, if_neg positive, if_neg was]
  exact ⟨rfl, rfl, rfl, rfl⟩

theorem cycle_exitTaken (rest : AtRest s) :
    (exitTaken s).cycle = adjustedCycle s.store.image s.cycle := by
  obtain ⟨-, -, -, -, cycle, -⟩ := exitTaken_blocks rest
  exact cycle

/-! ## Ports -/

/-- R161: the silence count that an accepted exit starts from. -/
def exitBase (s : State) (q : PortId) : Nat :=
  if s.ports.timeout = 0 ∧ 1 ≤ silenceTimeout s.store.image then 0 else (portOf s q).silence

theorem portOf_exitTaken (rest : AtRest s) (q : PortId) :
    portOf (exitTaken s) q = { portOf s q with silence := exitBase s q } := by
  obtain ⟨-, -, -, -, -, ports, -⟩ := exitTaken_blocks rest
  rw [portOf, ports, exitTimeout]
  simp [exitBase, exitSilence, portOf]

theorem timeout_exitTaken (rest : AtRest s) :
    (exitTaken s).ports.timeout = silenceTimeout s.store.image := by
  obtain ⟨-, -, -, -, -, ports, -⟩ := exitTaken_blocks rest
  rw [ports]
  rfl

/-! ## Alerts -/

theorem exitTaken_alertsStep (s : State) : AlertsStep (modesChanged s) (endSetup (exitTaken s)) := by
  have follow : AlertsStep (modesChanged s) (exitTaken s) :=
    .follow (exitCopies_alerts _) (by rw [exitCopies_store]; rfl)
  exact follow.trans (endSetup_alertsStep _)

theorem modeOf_modesChanged (s : State) (j : AlertKind) :
    modeOf (modesChanged s) j = (copiedModes s.store.image)[j.number] := rfl

theorem subscribed_modesChanged (s : State) (q : PortId) (j : AlertKind) :
    subscribed (modesChanged s) q j = subscribed s q j := by
  obtain ⟨-, -, -, -, -, -, -, -, store, -⟩ := modesChanged_blocks s
  rw [subscribed, store, subscribed]

theorem condition_modesChanged (s : State) (j : AlertKind) :
    condition (modesChanged s) j = condition s j := by
  rw [modesChanged_eq, condition_setAlerts]

/-- R147: a kind whose mode changes is judged afresh. -/
theorem mem_pendingOf_modesChanged {q : PortId} {j : AlertKind}
    (changed : modeOf s j ≠ modeOf (modesChanged s) j) : j ∈ pendingOf (modesChanged s) q ↔
      modeOf (modesChanged s) j = .level ∧ subscribed s q j = true ∧ condition s j = true :=
  (mem_pendingOf_changeModes (copiedModes s.store.image) s q j).trans (iff_of_eq (if_neg changed))

/-- R147: the kinds that await clear after an accepted exit. -/
theorem awaitingOf_exited (s : State) (q : PortId) (j : AlertKind) :
    j ∈ awaitingOf (endSetup (exitTaken s)) q ↔
      j ∈ awaitingOf s q ∧ modeOf (endSetup (exitTaken s)) j = modeOf s j := by
  have step := exitTaken_alertsStep s
  rw [step.awaitingOf_eq, step.modeOf_eq, modeOf_modesChanged, modesChanged, mem_awaitingOf_changeModes,
    modeOf, eq_comm (a := s.alerts.modes[j.number])]

/-- R142: an EDGE kind whose mode stands stays pending. -/
theorem pendingOf_exited_edge {q : PortId} {j : AlertKind} (was : modeOf s j = .edge)
    (now : modeOf (endSetup (exitTaken s)) j = .edge) (pends : j ∈ pendingOf s q) :
    j ∈ pendingOf (endSetup (exitTaken s)) q := by
  have step := exitTaken_alertsStep s
  rw [step.modeOf_eq] at now
  refine step.stays q j now ?_
  rw [modesChanged, mem_pendingOf_changeModes, if_pos]
  · exact pends
  · rw [modeOf_modesChanged] at now
    exact was.trans now.symm

/-- R143, R147: a kind that LEVEL mode takes up is judged afresh. -/
theorem pendingOf_exited_level {q : PortId} {j : AlertKind} (capable : levelCapable j = true)
    (was : modeOf s j = .edge) (now : modeOf (endSetup (exitTaken s)) j = .level) :
    j ∈ pendingOf (endSetup (exitTaken s)) q ↔
      subscribed s q j = true ∧ condition (endSetup (exitTaken s)) j = true := by
  have step := exitTaken_alertsStep s
  have mode : modeOf (modesChanged s) j = .level := by rwa [step.modeOf_eq] at now
  have changed : modeOf s j ≠ modeOf (modesChanged s) j := by
    rw [was, mode]
    simp
  have awaits : j ∉ awaitingOf (endSetup (exitTaken s)) q := by
    rw [awaitingOf_exited, now, was]
    simp
  have before : j ∈ pendingOf (modesChanged s) q ↔ levelPending (modesChanged s) q j = true := by
    rw [levelPending_iff, ← step.awaitingOf_eq, subscribed_modesChanged, condition_modesChanged,
      mem_pendingOf_modesChanged changed]
    exact ⟨fun ⟨_, mask, stands⟩ => ⟨mask, stands, awaits⟩, fun ⟨mask, stands, _⟩ => ⟨mode, mask, stands⟩⟩
  rw [step.level q j capable mode before, levelPending_iff, step.masks, subscribed_modesChanged]
  exact ⟨fun ⟨mask, stands, _⟩ => ⟨mask, stands⟩, fun ⟨mask, stands⟩ => ⟨mask, stands, awaits⟩⟩

/-- R147: a kind that EDGE mode takes up with its condition true is not pending. -/
theorem not_pendingOf_exited {q : PortId} {j : AlertKind} (capable : levelCapable j = true)
    (was : modeOf s j = .level) (now : modeOf (endSetup (exitTaken s)) j = .edge)
    (stood : condition s j = true) : j ∉ pendingOf (setupLeft (exitTaken s)) q := by
  have mode : modeOf (modesChanged s) j = .edge := by rwa [(exitTaken_alertsStep s).modeOf_eq] at now
  have changed : modeOf s j ≠ modeOf (modesChanged s) j := by
    rw [was, mode]
    simp
  have copies : (exitCopies (modesChanged s)).alerts = (modesChanged s).alerts := exitCopies_alerts _
  have modeC : modeOf (exitCopies (modesChanged s)) j = .edge := by
    rw [modeOf_of_modes (s := modesChanged s) (by rw [copies]), mode]
  have gone : j ∉ pendingOf (exitCopies (modesChanged s)) q := by
    rw [pendingOf, copies]
    intro pends
    have level := ((mem_pendingOf_modesChanged changed).mp pends).1
    rw [mode] at level
    cases level
  rw [mem_pendingOf_setupLeft, exitTaken_eq,
    mem_pendingOf_followConditions_edge _ _ q j capable modeC, condition_modesChanged, stood]
  rintro ((pends | rises) | ⟨rfl, -⟩)
  · exact gone pends
  · simp at rises
  · cases capable

end Exit

end Sys2Proof.Machine
end

section
/-! SUPPORT. SETUP-EXIT accepted (R41, R52, R63, R83, R90, R133, R161, R174). -/

namespace Sys2Proof.Machine

/-! ## The checks pass -/

theorem failingCheck_of_passes {s : State} {setup : Setup}
    (passes : ∀ n, 1 ≤ n → n ≤ 7 → exitCheck s setup n) : failingCheck s setup = none := by
  have first := (checkTemperatures_iff s setup).mpr (passes 1 (by decide) (by decide))
  have second := (checkHysteresis_iff s setup).mpr (passes 2 (by decide) (by decide))
  have third := (checkProbeLayers_iff s setup).mpr (passes 3 (by decide) (by decide))
  have fourth := (checkRecords_iff s setup).mpr (passes 4 (by decide) (by decide))
  have fifth := (checkShareSum_iff s setup).mpr (passes 5 (by decide) (by decide))
  have sixth := (checkShareChange_iff s setup).mpr (passes 6 (by decide) (by decide))
  have seventh := (checkThreshold_iff s setup).mpr (passes 7 (by decide) (by decide))
  simp [failingCheck, first, second, third, fourth, fifth, sixth, seventh]

theorem exec_setupExit_accepted {p : PortId} {s : State} {setup : Setup} (decoding : decodes s p = true)
    (inside : s.store.setup = some setup) (holder : setup.holder = p)
    (passes : ∀ n, 1 ≤ n → n ≤ 7 → exitCheck s setup n) : exec (.setupExit p) s =
      .next (answered p (accepted [0] (endSetup (exitTaken (heard p s))))) := by
  have none := failingCheck_of_passes passes
  rw [← failingCheck_heard p] at none
  have answer : setupExitAnswer p (heard p s) = accepted [0] (setupExited (heard p s)) := by
    simp [setupExitAnswer, inside, holder, none]
  rw [exec_setupExit decoding, answer, setupExited_eq]

section Exit
variable {s : State}

/-! ## The planner -/

/-- R90: the planner after an accepted exit. -/
theorem planner_exited (rest : AtRest s) (follows : s.planner.timerRunning = s.model.scanCompleted) :
    (s.planner.timerRunning = true →
      (endSetup (exitTaken s)).planner.period = s.planner.period + 1 ∧
        (endSetup (exitTaken s)).planner.secondsRemaining = periodLength s.store.image ∧
        (∀ q, subscribed s q .periodStart = true →
          .periodStart ∈ pendingOf (endSetup (exitTaken s)) q) ∧
        ∃ plan, (endSetup (exitTaken s)).planner.state = .planningFull plan ∧
          ((∃ n, probeLayer s.store.image n ≠ none) → RanksPermuted s → imageInRange s.store.image →
            planHolds .full (endSetup (exitTaken s)) plan)) ∧
    (s.planner.timerRunning = false → (∃ n, probeLayer s.store.image n ≠ none) →
      (endSetup (exitTaken s)).planner.state = .idle ∧
        (endSetup (exitTaken s)).planner.timerRunning = false) := by
  have planner := exitTaken_planner s
  refine ⟨fun runs => ?_, fun still some => ?_⟩
  · obtain ⟨begins, ⟨plan, state, holds⟩, raised⟩ := endSetup_timed (s := exitTaken s)
      (by rw [planner]; exact runs) (by rw [exitTaken_model, ← follows, runs])
    have period := begins.period
    have seconds := begins.seconds
    rw [planner] at period seconds
    refine ⟨period, seconds, fun q mask => raised q ?_, plan, state, fun some ranks range =>
      holds ((probed_exitTaken rest).mpr some) ?_ ?_⟩
    · rw [subscribed, exitTaken_image]
      exact mask
    · exact (exitTaken_grantsKept (listed := False) (fun h => h.elim)).ranks ranks
    · rwa [exitTaken_image]
  · rw [endSetup_still (by rw [planner]; exact still) ((probed_exitTaken rest).mpr some),
      setupLeft_planner, planner]
    exact ⟨rfl, still⟩

/-! ## Sources -/

theorem StoppedCounted.congr {s t : State} {k : SlotId} {g : GrantRecord} (counted : StoppedCounted t k g)
    (grant : grantOf t k = grantOf s k)
    (slot : ∀ i, heldSlot t i = some k ↔ heldSlot s i = some k)
    (lapse : ∀ i, heldSlot s i = some k → (lapses t i ↔ lapses s i)) : StoppedCounted s k g := by
  have held : heldFor s k = none → heldFor t k = none := by
    intro vacant
    refine Classical.byContradiction fun found => ?_
    obtain ⟨i, slotT⟩ := (heldFor_isSome t k).mp (Option.isSome_iff_ne_none.mpr found)
    have taken := (heldFor_isSome s k).mpr ⟨i, (slot i).mp slotT⟩
    simp [vacant] at taken
  have outlasts (lasts : ∀ i, heldSlot s i = some k → ¬lapses s i) (i : FrameId)
      (slotT : heldSlot t i = some k) : ¬lapses t i := by
    have slotS := (slot i).mp slotT
    rw [lapse i slotS]
    exact lasts i slotS
  obtain ⟨waiting, restsOn, rested, still⟩ := counted
  rw [grant] at waiting restsOn rested still
  refine ⟨fun waits => ⟨fun lasts => (waiting waits).1 (outlasts lasts), fun i slotS ends =>
      (waiting waits).2 i ((slot i).mpr slotS) ((lapse i slotS).mpr ends)⟩, restsOn,
    fun rests short => ⟨fun none => (rested rests short).1 (held none), fun i slotS lasts =>
      (rested rests short).2.1 i ((slot i).mpr slotS) (outlasts lasts), fun i slotS ends =>
      (rested rests short).2.2 i ((slot i).mpr slotS) ((lapse i slotS).mpr ends)⟩, still⟩

theorem exitTaken_follows (follows : s.planner.timerRunning = s.model.scanCompleted) :
    (exitTaken s).planner.timerRunning = (exitTaken s).model.scanCompleted := by
  rw [exitTaken_planner, exitTaken_model]
  exact follows

/-- R45, R52: an IDLE or UNUSED source stands at the end of setup. -/
theorem grantOf_endSetup_still {e : State} (rest : AtRest e)
    (follows : e.planner.timerRunning = e.model.scanCompleted) {k : SlotId}
    (still : (grantOf e k).state = .idle ∨ (grantOf e k).state = .unused) :
    grantOf (endSetup e) k = grantOf e k := by
  rcases (grantOf_endSetup rest follows k).2 with ⟨-, -, same⟩ | counted
  · exact same
  · exact counted.still still

/-- R52: a slot that an exit neither renews nor empties is counted from its record as it was. -/
theorem stoppedCounted_exitTaken (rest : AtRest s) {k : SlotId} {g : GrantRecord}
    (old : ¬slotRenewed s k) (owned : ¬slotEmptied s k)
    (counted : StoppedCounted (exitTaken s) k g) : StoppedCounted s k g := by
  have stays (i : FrameId) (slot : heldSlot s i = some k) : ¬isWithdrawn s i = true := by
    rw [isWithdrawn_iff]
    rintro ⟨j, other, loses⟩
    obtain rfl : k = j := Option.some.inj (slot.symm.trans other)
    exact loses.elim old owned
  refine counted.congr ?_ (fun i => ?_) fun i slot => ?_
  · rw [grantOf_exitTaken rest, exitGrant_kept old owned]
  · rw [heldSlot_exitTaken rest]
    refine ⟨fun slot => ?_, fun slot => by rw [if_neg (stays i slot), slot]⟩
    split at slot
    · cases slot
    · exact slot
  · have frame := frameOf_exitTaken rest i
    rw [if_neg (stays i slot)] at frame
    simp only [lapses, frame]

/-- R41, R52: the grant records after an accepted exit. -/
theorem grants_exited (rest : AtRest s) (follows : s.planner.timerRunning = s.model.scanCompleted)
    (k : SlotId) :
    (grantOf (endSetup (exitTaken s)) k).rank = (grantOf s k).rank ∧
      (slotRenewed s k →
        grantOf (endSetup (exitTaken s)) k = clearedGrant .idle (grantOf s k).rank) ∧
      (slotEmptied s k →
        grantOf (endSetup (exitTaken s)) k = clearedGrant .unused (grantOf s k).rank) ∧
      (¬slotRenewed s k → ¬slotEmptied s k →
        (s.planner.timerRunning = false → (∃ n, probeLayer s.store.image n ≠ none) →
          grantOf (endSetup (exitTaken s)) k = grantOf s k) ∧
        ((grantOf s k).state = .idle ∨ (grantOf s k).state = .unused →
          grantOf (endSetup (exitTaken s)) k = grantOf s k) ∧
        (s.planner.timerRunning = true →
          StoppedCounted s k (grantOf (endSetup (exitTaken s)) k))) := by
  have restE := atRest_exitTaken rest
  have followsE := exitTaken_follows follows
  have grant := grantOf_exitTaken rest k
  obtain ⟨rank, outcome⟩ := grantOf_endSetup restE followsE k
  have keptRank : (exitGrant s k (grantOf s k)).rank = (grantOf s k).rank := by
    rcases exitGrant_cases s k (grantOf s k) with ⟨_, st, eq, _⟩ | ⟨_, eq, _⟩ <;> rw [eq]
    rfl
  refine ⟨by rw [rank, grant, keptRank], fun renewed => ?_, fun emptied => ?_, fun old owned => ?_⟩
  · rw [exitGrant_renewed renewed] at grant
    rw [grantOf_endSetup_still restE followsE (.inl (by rw [grant]; rfl)), grant]
  · rw [exitGrant_emptied emptied] at grant
    rw [grantOf_endSetup_still restE followsE (.inr (by rw [grant]; rfl)), grant]
  · rw [exitGrant_kept old owned] at grant
    refine ⟨fun still some => ?_, fun idle => ?_, fun runs => ?_⟩
    · rw [endSetup_still (by rw [exitTaken_planner]; exact still) ((probed_exitTaken rest).mpr some),
        (setupLeft_restAlike _).grant, grant]
    · rw [grantOf_endSetup_still restE followsE (by rw [grant]; exact idle), grant]
    · rcases outcome with ⟨still, -⟩ | counted
      · rw [exitTaken_planner] at still
        have still : s.planner.timerRunning = false := still
        rw [runs] at still
        cases still
      · exact stoppedCounted_exitTaken rest old owned counted

/-! ## Requests -/

/-- R83: the request of a slot that loses it, after an accepted exit. -/
theorem withdrawn_exited (rest : AtRest s) (follows : s.planner.timerRunning = s.model.scanCompleted)
    {i : FrameId} {k : SlotId} (slot : heldSlot s i = some k)
    (loses : slotRenewed s k ∨ slotEmptied s k) :
    (frameOf (endSetup (exitTaken s)) i).state = .reported ∧
      (frameOf (endSetup (exitTaken s)) i).request = (frameOf s i).request ∧
      (frameOf (endSetup (exitTaken s)) i).result = { (frameOf s i).result with
        outcome := .withdrawn, endPeriod := s.planner.period } ∧
      ∀ q, ownerOf s i = some q → i ∈ replyQueue (endSetup (exitTaken s)) q := by
  have withdrawn : isWithdrawn s i = true := (isWithdrawn_iff s i).mpr ⟨k, slot, loses⟩
  have frame := frameOf_exitTaken rest i
  rw [if_pos withdrawn] at frame
  have out : isHeld (exitTaken s) i = false :=
    isHeld_of_state (st := .reported) (by rw [frame]; rfl) (by simp)
  have restE := atRest_exitTaken rest
  have followsE := exitTaken_follows follows
  rw [frameOf_endSetup_notHeld restE followsE out, frame]
  exact ⟨rfl, rfl, rfl, fun q owner =>
    endSetup_repliesStay restE followsE i q (replyQueue_exitTaken rest withdrawn owner)⟩

/-- R174: with the timer still no other held request is touched. -/
theorem held_exited (rest : AtRest s) (still : s.planner.timerRunning = false)
    (some : ∃ n, probeLayer s.store.image n ≠ none) {i : FrameId}
    (kept : ∀ k, heldSlot s i = Option.some k → ¬slotRenewed s k ∧ ¬slotEmptied s k) :
    frameOf (endSetup (exitTaken s)) i = frameOf s i := by
  have stays : ¬isWithdrawn s i = true := by
    rw [isWithdrawn_iff]
    rintro ⟨k, slot, loses⟩
    exact loses.elim (kept k slot).1 (kept k slot).2
  rw [endSetup_still (by rw [exitTaken_planner]; exact still) ((probed_exitTaken rest).mpr some),
    (setupLeft_restAlike _).frame, frameOf_exitTaken rest, if_neg stays]

/-! ## Cycle and ports -/

theorem cycle_exited_off (rest : AtRest s) (follows : s.planner.timerRunning = s.model.scanCompleted)
    (zero : disinfectionInterval s.store.image = 0) :
    (endSetup (exitTaken s)).cycle.state = .off ∧ (endSetup (exitTaken s)).cycle.sinceSuccess = 0 ∧
      (endSetup (exitTaken s)).cycle.sinceDue = 0 ∧ (endSetup (exitTaken s)).cycle.holdCount = 0 := by
  have off := adjustedCycle_off s.cycle zero
  have cycle := cycle_exitTaken rest
  rw [cycle_endSetup_off (atRest_exitTaken rest) (exitTaken_follows follows) (by rw [cycle, off.1]), cycle]
  exact off

theorem cycle_exited_still (rest : AtRest s) (still : s.planner.timerRunning = false)
    (some : ∃ n, probeLayer s.store.image n ≠ none) :
    (endSetup (exitTaken s)).cycle = adjustedCycle s.store.image s.cycle := by
  rw [endSetup_still (by rw [exitTaken_planner]; exact still) ((probed_exitTaken rest).mpr some),
    (setupLeft_restAlike _).cycle, cycle_exitTaken rest]

/-- R159, R161: the ports after an accepted exit. -/
theorem ports_exited (rest : AtRest s) (follows : s.planner.timerRunning = s.model.scanCompleted)
    (q : PortId) :
    (s.planner.timerRunning = false → (∃ n, probeLayer s.store.image n ≠ none) →
      portOf (endSetup (exitTaken s)) q = { portOf s q with silence := exitBase s q }) ∧
    (s.planner.timerRunning = true →
      ((portOf s q).active = false ∨ silenceTimeout s.store.image = 0 →
        portOf (endSetup (exitTaken s)) q = { portOf s q with silence := exitBase s q }) ∧
      ((portOf s q).active = true → 1 ≤ silenceTimeout s.store.image →
        portOf (endSetup (exitTaken s)) q = { portOf s q with
          silence := min 255 (exitBase s q + 1)
          active := decide (min 255 (exitBase s q + 1) < silenceTimeout s.store.image) })) := by
  have port := portOf_exitTaken rest q
  refine ⟨fun still some => ?_, fun runs => ?_⟩
  · rw [endSetup_still (by rw [exitTaken_planner]; exact still) ((probed_exitTaken rest).mpr some),
      (setupLeft_restAlike _).port, port]
  · have timed := portOf_endSetup_timed (atRest_exitTaken rest) (exitTaken_follows follows)
      (by rw [exitTaken_planner]; exact runs) q
    rwa [port, timeout_exitTaken rest] at timed

end Exit

end Sys2Proof.Machine
end

section
/-! SUPPORT. SETUP-EXIT accepted (R174): the blocks that take their copies, and the statement. -/

namespace Sys2Proof.Machine

section Copies
variable {s : State}

/-! ## The copies -/

/-- R174: what an accepted exit leaves as it was. -/
theorem left_exited (rest : AtRest s) :
    (endSetup (exitTaken s)).store = { s.store with setup := none } ∧
      (endSetup (exitTaken s)).part = s.part ∧ (endSetup (exitTaken s)).wires = s.wires ∧
      (endSetup (exitTaken s)).safety.overtemp = s.safety.overtemp ∧
      ∀ q, postList (endSetup (exitTaken s)) q = postList s q := by
  have kept := endSetup_eventKept (exitTaken s)
  obtain ⟨part, wires, -, safety, -⟩ := exitTaken_blocks rest
  refine ⟨by rw [endSetup_store, exitTaken_store], kept.part.trans part, kept.wires.trans wires, ?_,
    fun q => ?_⟩
  · rw [endSetup_safety, safety]
    rfl
  · rw [postList, kept.postLists, (lists_exitTaken rest).1, postList]

/-- R40: every slot has its record from the image. -/
theorem recordOf_exited (rest : AtRest s) (k : SlotId) :
    recordOf (endSetup (exitTaken s)) k = copiedRecord s.store.image k := by
  rw [recordOf, (endSetup_eventKept (exitTaken s)).records]
  exact recordOf_exitTaken rest k

/-- R61, R63: the shares, and the free lists with them. -/
theorem shares_exited (rest : AtRest s) :
    (endSetup (exitTaken s)).pool.shares = copiedShares s.store.image ∧
      (copiedShares s.store.image = s.pool.shares →
        (endSetup (exitTaken s)).pool.freeLists = s.pool.freeLists) ∧
      (copiedShares s.store.image ≠ s.pool.shares → ∀ q, freeList (endSetup (exitTaken s)) q =
        portFrames (copiedShares s.store.image) q) := by
  have kept := endSetup_eventKept (exitTaken s)
  obtain ⟨-, same, changed⟩ := lists_exitTaken rest
  refine ⟨kept.shares.trans (exitTaken_shares s), fun equal => kept.freeLists.trans (same equal),
    fun differ q => ?_⟩
  rw [freeList, kept.freeLists, changed differ]
  simp

/-- R158, R147: the planner's, the ports' and the alert router's settings. -/
theorem settings_exited (rest : AtRest s) :
    (endSetup (exitTaken s)).planner.periodLength = periodLength s.store.image ∧
      (endSetup (exitTaken s)).planner.lateThreshold = lateThreshold s.store.image ∧
      (endSetup (exitTaken s)).ports.timeout = silenceTimeout s.store.image ∧
      (endSetup (exitTaken s)).alerts.modes = copiedModes s.store.image := by
  have kept := endSetup_eventKept (exitTaken s)
  refine ⟨?_, ?_, kept.timeout.trans (timeout_exitTaken rest), ?_⟩
  · rw [kept.periodLength, exitTaken_planner]
  · rw [kept.lateThreshold, exitTaken_planner]
  · rw [kept.modes, exitTaken_eq, followConditions_modes, exitCopies_alerts, modesChanged,
      changeModes_modes]

/-- R133: the cycle's settings. -/
theorem cycleSettings_exited (rest : AtRest s) :
    (endSetup (exitTaken s)).cycle.interval = disinfectionInterval s.store.image ∧
      (endSetup (exitTaken s)).cycle.hold = disinfectionHold s.store.image ∧
      (endSetup (exitTaken s)).cycle.deadline = disinfectionDeadline s.store.image ∧
      (endSetup (exitTaken s)).cycle.tDis = tDis s.store.image ∧
      (endSetup (exitTaken s)).cycle.floor = comfortFloor s.store.image := by
  have kept := endSetup_eventKept (exitTaken s)
  rw [kept.interval, kept.hold, kept.deadline, kept.tDis, kept.floor, cycle_exitTaken rest]
  exact adjustedCycle_settings _ _

/-- R122, R125: the lines' settings. -/
theorem lineOf_exited (rest : AtRest s) (l : Line) :
    (lineOf (endSetup (exitTaken s)) l).activeLevel = linePolarity s.store.image l ∧
      (lineOf (endSetup (exitTaken s)) l).settleTime = lineSettle s.store.image l ∧
      (lineOf (endSetup (exitTaken s)) l).settled = (lineOf s l).settled ∧
      (lineOf (endSetup (exitTaken s)) l).settling = (lineOf s l).settling := by
  have line : lineOf (exitTaken s) l = exitLine s.store.image l (lineOf s l) := by
    obtain ⟨-, -, -, safety, -⟩ := exitTaken_blocks rest
    cases l <;> simp only [lineOf, safety, linesCopied]
  rw [(endSetup_eventKept (exitTaken s)).lineOf_eq, line]
  exact ⟨rfl, rfl, rfl, rfl⟩

/-- R4: the probe slots. -/
theorem probes_exited (rest : AtRest s) (n : ProbeId) :
    ((s.scanner.probes[n]).address = probeAddress s.store.image n →
      (s.scanner.probes[n]).layer = probeLayer s.store.image n →
        (endSetup (exitTaken s)).scanner.probes[n] = s.scanner.probes[n]) ∧
    ((s.scanner.probes[n]).address ≠ probeAddress s.store.image n ∨
        (s.scanner.probes[n]).layer ≠ probeLayer s.store.image n →
      (endSetup (exitTaken s)).scanner.probes[n] =
        { address := probeAddress s.store.image n, layer := probeLayer s.store.image n
          state := if probeLayer s.store.image n = none then .unused else .unread
          lastValid := 0, holdCount := 0 }) := by
  rw [endSetup_probes, probes_exitTaken rest]
  exact ⟨exitProbe_kept, exitProbe_changed⟩

/-- R5, R6: the scan that begins as an accepted exit ends setup. -/
theorem scan_exited (rest : AtRest s) :
    ((∃ n, probeLayer s.store.image n ≠ none) →
      (endSetup (exitTaken s)).scanner.interval = (imageByte s.store.image 0x020).toNat ∧
      (endSetup (exitTaken s)).scanner.scan = some
        { toRead := (List.finRange 8).filter fun n => (probeLayer s.store.image n).isSome
          results := []
          holdLimit := (imageByte s.store.image 0x021).toNat
          inversionMargin := (imageWord s.store.image 0x022).toNat
          tLimit := (imageWord s.store.image 0x02A).toInt
          hysteresis := (imageWord s.store.image 0x02C).toNat }) ∧
    ((¬∃ n, probeLayer s.store.image n ≠ none) →
      (endSetup (exitTaken s)).scanner.scan = none ∧ (endSetup (exitTaken s)).model.state = .none) := by
  refine ⟨fun some => scan_exitTaken rest ((probed_exitTaken rest).mpr some), fun empty => ?_⟩
  obtain ⟨scan, model, -⟩ := endSetup_empty (mt (probed_exitTaken rest).mp empty)
  exact ⟨scan, model⟩

/-- R133: the cycle with the timer still. -/
theorem cycle_exited (rest : AtRest s) (still : s.planner.timerRunning = false)
    (some : ∃ n, probeLayer s.store.image n ≠ none)
    (positive : disinfectionInterval s.store.image ≠ 0) :
    (s.cycle.interval = 0 → (endSetup (exitTaken s)).cycle.state = .counting ∧
      (endSetup (exitTaken s)).cycle.sinceSuccess = 0 ∧
      (endSetup (exitTaken s)).cycle.sinceDue = 0 ∧ (endSetup (exitTaken s)).cycle.holdCount = 0) ∧
    (s.cycle.interval ≠ 0 → (endSetup (exitTaken s)).cycle.state = s.cycle.state ∧
      (endSetup (exitTaken s)).cycle.sinceSuccess = s.cycle.sinceSuccess ∧
      (endSetup (exitTaken s)).cycle.sinceDue = s.cycle.sinceDue ∧
      (endSetup (exitTaken s)).cycle.holdCount = s.cycle.holdCount) := by
  rw [cycle_exited_still rest still some]
  exact ⟨adjustedCycle_started positive, adjustedCycle_goesOn positive⟩

/-! ## Alerts -/

theorem setupChange_exited {q : PortId} (mask : subscribed s q .setupChange = true) :
    .setupChange ∈ pendingOf (endSetup (exitTaken s)) q := by
  refine setupChange_raised (s := exitTaken s) ?_
  rw [subscribed, exitTaken_image]
  exact mask

/-- R147: with the timer still, a kind that EDGE mode takes up with its condition true is not pending. -/
theorem not_pendingOf_exited_still (rest : AtRest s) (still : s.planner.timerRunning = false)
    (some : ∃ n, probeLayer s.store.image n ≠ none) {q : PortId} {j : AlertKind}
    (capable : levelCapable j = true) (was : modeOf s j = .level)
    (now : modeOf (endSetup (exitTaken s)) j = .edge) (stood : condition s j = true) :
    j ∉ pendingOf (endSetup (exitTaken s)) q := by
  rw [endSetup_still (by rw [exitTaken_planner]; exact still) ((probed_exitTaken rest).mpr some)]
  exact not_pendingOf_exited capable was now stood

/-- R147: the alert sets after an accepted exit. -/
theorem alerts_exited (rest : AtRest s) (q : PortId) (j : AlertKind) :
    (j ∈ awaitingOf (endSetup (exitTaken s)) q ↔
      j ∈ awaitingOf s q ∧ modeOf (endSetup (exitTaken s)) j = modeOf s j) ∧
    (modeOf s j = .edge → modeOf (endSetup (exitTaken s)) j = .edge → j ∈ pendingOf s q →
      j ∈ pendingOf (endSetup (exitTaken s)) q) ∧
    (levelCapable j = true → modeOf s j = .edge → modeOf (endSetup (exitTaken s)) j = .level →
      (j ∈ pendingOf (endSetup (exitTaken s)) q ↔
        subscribed s q j = true ∧ condition (endSetup (exitTaken s)) j = true)) ∧
    (s.planner.timerRunning = false → (∃ n, probeLayer s.store.image n ≠ none) →
      levelCapable j = true → modeOf s j = .level → modeOf (endSetup (exitTaken s)) j = .edge →
      condition s j = true → j ∉ pendingOf (endSetup (exitTaken s)) q) :=
  ⟨awaitingOf_exited s q j, pendingOf_exited_edge, pendingOf_exited_level,
    fun still some => not_pendingOf_exited_still rest still some⟩

end Copies

/-! ## The answer -/

theorem portOf_answered_other {p q : PortId} (a : Answer) (other : q ≠ p) :
    portOf (answered p a) q = portOf a.2 q := by
  have stands := getElem_modifyAt_other a.2.ports.ports p q
    (fun port => { port with response := some a.1 }) other.symm
  simpa [answered, modPort, portOf] using stands

theorem portOf_heard_other {p q : PortId} (s : State) (other : q ≠ p) :
    portOf (heard p s) q = portOf s q := by
  rw [portOf_heard, if_neg other.symm]

/-- Settles O48, block by block. -/
theorem setupExitTakesCopies : Obligations.SetupExitTakesCopies := by
  intro p setup s decoding inside holder passes follows sources img probed
  have rest : AtRest (heard p s) := sources.atRest ((inSetup_iff s).mpr ⟨setup, inside⟩)
  have follows : (heard p s).planner.timerRunning = (heard p s).model.scanCompleted := follows
  refine ⟨_, exec_setupExit_accepted decoding inside holder passes, ?_⟩
  obtain ⟨store, part, wires, overtemp, posts⟩ := left_exited rest
  have records := recordOf_exited rest
  obtain ⟨shares, sameLists, newLists⟩ := shares_exited rest
  obtain ⟨period, threshold, timeout, modes⟩ := settings_exited rest
  obtain ⟨interval, hold, deadline, disinfection, floor⟩ := cycleSettings_exited rest
  have lines := lineOf_exited rest
  have probes := probes_exited rest
  obtain ⟨scans, empties⟩ := scan_exited rest
  obtain ⟨begins, stays⟩ := planner_exited rest follows
  have grants := grants_exited rest follows
  have withdrawn := @withdrawn_exited _ rest follows
  have held := @held_exited _ rest
  have off := cycle_exited_off rest follows
  have cycle := @cycle_exited _ rest
  have ports := ports_exited rest follows
  have raised := @setupChange_exited (heard p s)
  have alerts := alerts_exited rest
  generalize endSetup (exitTaken (heard p s)) = t at *
  have plans (plan : Plan) := (answered_plansAlike p (accepted [0] t)).planHolds (kind := .full) (plan := plan)
  refine ⟨answered_response p _, store, part, wires, overtemp, posts, records, shares, sameLists, newLists,
    period, threshold, timeout, modes, interval, hold, deadline, disinfection, floor, lines, probes,
    scans, empties, fun runs => ?_, stays, fun k => ?_, @withdrawn,
    fun still some i _ => held still some, off, fun still some => cycle still some, fun q other => ?_,
    fun q => raised, alerts⟩
  · obtain ⟨next, seconds, pends, plan, state, holds⟩ := begins runs
    exact ⟨next, seconds, pends, plan, state, fun some ranks range => plans plan (holds some ranks range)⟩
  · obtain ⟨rank, renewed, emptied, others⟩ := grants k
    refine ⟨rank, renewed, emptied, fun old owned => ?_⟩
    obtain ⟨still, idle, counted⟩ := others old owned
    refine ⟨still, idle, fun runs => ?_⟩
    obtain ⟨waiting, restsOn, rested, -⟩ := counted runs
    exact ⟨waiting, restsOn, rested⟩
  · have port := ports q
    rw [exitBase, portOf_heard_other s other] at port
    rw [portOf_answered_other _ other]
    exact port

end Sys2Proof.Machine
end
